-- ==== Sys2Proof/Word.lean ====
section
/-! DEFINITION. Bytes, and the fixed-size tables the part holds. -/

namespace Sys2Proof

/-- One byte of a frame (10 opening: bits appear only where a frame layout shows them). -/
abbrev Byte := BitVec 8

/-- A table of exactly `n` entries, numbered from 0 (00 "Names"). -/
structure Table (α : Type) (n : Nat) where
  rows : List α
  size : rows.length = n
  deriving DecidableEq, Repr

namespace Table

variable {α : Type} {n : Nat}

/-- Entry `i`. -/
def get (t : Table α n) (i : Fin n) : α := t.rows[i.val]'(by rw [t.size]; exact i.isLt)

/-- The table with entry `i` replaced. -/
def set (t : Table α n) (i : Fin n) (x : α) : Table α n :=
  ⟨t.rows.set i.val x, by simp [t.size]⟩

/-- The table with entry `i` changed by `f`. -/
def modify (t : Table α n) (i : Fin n) (f : α → α) : Table α n := t.set i (f (t.get i))

/-- The table with every entry changed by `f`. -/
def map (t : Table α n) (f : α → α) : Table α n := ⟨t.rows.map f, by simp [t.size]⟩

/-- The table whose every entry is `x`. -/
def replicate (n : Nat) (x : α) : Table α n := ⟨List.replicate n x, by simp⟩

/-- Whether some entry passes `p`. -/
def any (t : Table α n) (p : α → Bool) : Bool := t.rows.any p

end Table

end Sys2Proof
end

