-- ==== Sys2Proof/Syntax.lean ====
section
/-! DEFINITION. The commands of the SC-64: one constructor of `Instr` for each row of
spec/opcode_table.json, in its order, and the types of their operands. -/

namespace Sys2Proof

/-- The two chain-link ports: the F-port faces the field, the C-port the controller (chapter 9). -/
inductive PortId where
  | f
  | c
  deriving DecidableEq, Repr

/-- What brings a hard reset about (R165): power being applied, or RSTn held low for a time in
microseconds. -/
inductive ResetCause where
  | powerOn
  | rstnLow (micros : Nat)
  deriving DecidableEq, Repr

/-- The two ways by which an inbound frame reaches the scheduler (R150): as the forward candidate
of a SAMPLE frame, or as a frame of another kind. -/
inductive FwWay where
  | candidate
  | other
  deriving DecidableEq, Repr

/-- The blocks that make enqueue requests, each separately (R107). -/
inductive Requester where
  | classifier
  | slot (k : Fin 16)
  | rule (k : Fin 32)
  | ring (k : Fin 8)
  | port (p : PortId)
  deriving DecidableEq, Repr

/-- The commands of the part, one for each row of the table of operations and events. The request
commands act on the request the management unit is executing (R129). -/
inductive Instr where
  /-- R165: power-on or a low on RSTn, to its end, with the straps as they stand then (R127). -/
  | hardReset (cause : ResetCause) (straps : Fin 16)
  /-- R165: hard-reset initialisation completes. -/
  | initialisationComplete
  /-- R166, R168: a valid TRAIN symbol with its heard flag. -/
  | receiveTrain (p : PortId) (heard : Bool)
  /-- R166: a symbol that cannot be decoded. -/
  | undecodableSymbol (p : PortId)
  /-- R166, R169: a HOLD symbol. -/
  | receiveHold (p : PortId)
  /-- R166, R169: a GO symbol. -/
  | receiveGo (p : PortId)
  /-- R166, R168: the receiver loses lock. -/
  | lossOfLock (p : PortId)
  /-- R171: a whole frame, its closing CRC included. -/
  | frameReceived (p : PortId) (bytes : List Byte)
  /-- R170: the port takes the oldest change of its queue's occupancy. -/
  | holdSentChange (p : PortId)
  /-- R170: the 1 ms period of a port in UP expires. -/
  | flowSymbolRepeat (p : PortId)
  /-- R13: the classifier takes the next SAMPLE frame. -/
  | sampleFrameTaken
  /-- R21: the classifier takes the F-port leaving UP. -/
  | fPortLeavingUpClassifier
  /-- R152, R160: the scheduler takes the next inbound frame of one way. -/
  | fwPlace (way : FwWay)
  /-- R28, R35: a slot takes the next item of its stream, a sample. -/
  | slotTakeSample (k : Fin 16)
  /-- R38, R39: a slot takes the next item of its stream, a gap mark. -/
  | slotTakeGapMark (k : Fin 16)
  /-- R36: a slot takes a START from a rule. -/
  | slotStart (k : Fin 16)
  /-- R47, R51: a rule takes the next item of its stream, a value. -/
  | ruleTakeValue (k : Fin 32)
  /-- R53: a rule takes the next item of its stream, a gap mark. -/
  | ruleTakeGapMark (k : Fin 32)
  /-- R71: a ring takes the next item of its stream, a sample or output record. -/
  | ringTakeItem (k : Fin 8)
  /-- R77, R87: a ring takes the next item of its stream, a gap mark. -/
  | ringTakeGapMark (k : Fin 8)
  /-- R83: a ring takes a FREEZE sent to it by a rule. -/
  | ringFreeze (k : Fin 8) (rule : Fin 32)
  /-- R153: the assembler takes the next output record handed to it by a slot. -/
  | assemblerTakeRecord (k : Fin 16)
  /-- R153: the assembler's hold timer expires. -/
  | reducedHoldExpiry
  /-- R107: the event unit takes the next enqueue request of a requester. -/
  | eventEnqueue (r : Requester)
  /-- R118: the retransmit timer expires. -/
  | retransmitTimeout
  /-- R114: the event unit takes the C-port leaving UP. -/
  | deliverySuspend
  /-- R114: the event unit takes the C-port coming UP. -/
  | deliveryResume
  /-- R158: the arbiter decides and grants one frame. -/
  | arbiterGrant
  /-- R95: the engine produces one READOUT frame. -/
  | readoutFrameProduce
  /-- R102: a pending terminating frame is placed. -/
  | terminatingFramePlace
  /-- R163: the oldest OB frame is sent. -/
  | obSend
  /-- R160: the scheduler and the readout engine take the C-port leaving UP. -/
  | cPortLeavingUpEgress
  /-- R160, R174: the scheduler takes the C-port coming UP. -/
  | cPortComingUpEgress
  /-- R163: the scheduler takes the F-port leaving UP. -/
  | fPortLeavingUpEgress
  /-- R144. -/
  | ident
  /-- R133. -/
  | readEntry
  /-- R134, R135. -/
  | writeEntry
  /-- R136. -/
  | enable
  /-- R136. -/
  | disable
  /-- R140, R141: the next event of the request, one block's share or the reply. -/
  | readStatus
  /-- R142: the next event of the request, one block's share or the reply. -/
  | clearCounters
  /-- R143. -/
  | setTime
  /-- R93, R94. -/
  | readRing
  /-- R101. -/
  | abortRead
  /-- R78. -/
  | releaseHalf
  /-- R79. -/
  | flushRing
  /-- R83. -/
  | freezeRing
  /-- R88. -/
  | rearmRing
  /-- R37. -/
  | startSlot
  /-- R120. -/
  | eventAck
  /-- R122. -/
  | eventResync
  /-- R145, R147: the next event of the request, one block's share or the reply. -/
  | restart
  /-- R128 stage 4. -/
  | unknownCode
  /-- R158, R163: a port's transmitter has sent its frame whole. -/
  | frameSendComplete (p : PortId)
  /-- R128 stage 1. -/
  | requestTooShort
  deriving DecidableEq, Repr

end Sys2Proof
end

