-- ==== Sys2Proof/Config.lean ====
section
/-! DEFINITION. The capacities, limits, defaults and code values the SC-64's manual fixes. -/

namespace Sys2Proof.Config

/-- The largest value of a saturating 32-bit count (R5, R140). -/
abbrev maxCount : Nat := 4294967295

/-- One more than the largest 32-bit index or time mark (R3, R15, R29). -/
abbrev indexModulus : Nat := 4294967296

/-- One more than the largest serial or frame sequence (R6, R109). -/
abbrev serialModulus : Nat := 65536

/-- The largest gap-mark count of a channel (R22). -/
abbrev maxGapMarks : Nat := 65535

/-- Words of capture memory (R65). -/
abbrev captureWords : Nat := 65536

/-- Records the event queue holds (R107). -/
abbrev eventCapacity : Nat := 128

/-- Records one EVENT frame carries at most (R116). -/
abbrev eventFrameRecords : Nat := 4

/-- Frames FW, DT and OB hold (R148). -/
abbrev fwCapacity : Nat := 32
abbrev dtCapacity : Nat := 16
abbrev obCapacity : Nat := 8

/-- Places of DT that one readout may fill, and REDUCED frames allowed beside it (R95, R155). -/
abbrev readoutPlaces : Nat := 8
abbrev reducedPlaces : Nat := 8

/-- Words one READOUT frame carries at most (R95). -/
abbrev readoutFrameWords : Nat := 48

/-- Records one REDUCED frame carries at most (R153). -/
abbrev reducedFrameRecords : Nat := 12

/-- Requests that wait besides the one being executed (R129). -/
abbrev pendingCapacity : Nat := 4

/-- Requester tags (R131). -/
abbrev tags : Nat := 4

/-- TRAIN symbols that complete training (R166). -/
abbrev trainTarget : Nat := 8

/-- Microseconds in a millisecond, and the period of flow-symbol repetition (R170). -/
abbrev microsPerMilli : Nat := 1000
abbrev flowPeriod : Nat := 1000

/-- Microseconds RSTn must stay low to cause a hard reset (R165). -/
abbrev resetLowTime : Nat := 10

/-- The broadcast node id and the controller's node id (00 "Terms and abbreviations"). -/
abbrev broadcastNode : Nat := 31
abbrev controllerNode : Nat := 0

/-- The two thresholds of each port's watched queue (R170). -/
abbrev fwHigh : Nat := 24
abbrev fwLow : Nat := 8
abbrev obHigh : Nat := 6
abbrev obLow : Nat := 2

/-- Code values of IDENT (section 10.3). -/
abbrev vendorCode : Nat := 0x0D7A
abbrev partCode : Nat := 0x0640
abbrev revision : Nat := 1

/-- A FREE VALUE: which of the blocks that have still to take their share of a request takes it next
(R145: the blocks' order among themselves is not fixed), for each choice the part makes (assumption 24). -/
opaque nextShare : Nat → Nat

end Sys2Proof.Config
end

