-- ==== Sys2Proof/Machine/Arith.lean ====
section
/-! DEFINITION. Counting, wrapping, floor-shifting and the byte order of chapter 10. -/

namespace Sys2Proof.Machine

/-- A count that saturates at 4,294,967,295 (section 1.3). -/
def sat32 (n : Nat) : Nat := min n Config.maxCount

/-- A saturating count one higher. -/
def bump32 (n : Nat) : Nat := sat32 (n + 1)

/-- An index or time mark, wrapping from 4,294,967,295 to 0 (R3, R15, R29). -/
def wrap32 (n : Nat) : Nat := n % Config.indexModulus

/-- A serial or frame sequence, wrapping from 65,535 to 0 (00 "Modular comparison"). -/
def wrap16 (n : Nat) : Nat := n % Config.serialModulus

/-- A saturating gap-mark count one higher (R22). -/
def bumpGapMarks (n : Nat) : Nat := min (n + 1) Config.maxGapMarks

/-- Division by 2^k rounding toward minus infinity (00 "Floor shift"). -/
def floorShift (v : Int) (k : Nat) : Int := v.fdiv (2 ^ k)

/-- The distance (q − expected) mod 65,536 (R6). -/
def seqDistance (q expected : Nat) : Nat :=
  (q + (Config.serialModulus - wrap16 expected)) % Config.serialModulus

/-! ### Bytes, most significant first (chapter 10 opening) -/

/-- One byte of a number. -/
def byteOf (n : Nat) : Byte := BitVec.ofNat 8 n

/-- A flag byte: 0 off, 1 on (section 10.5). -/
def boolByte (b : Bool) : Byte := if b then 1 else 0

/-- Two bytes of an unsigned number. -/
def bytes2 (n : Nat) : List Byte := [byteOf (n / 256), byteOf n]

/-- Three bytes of an unsigned number. -/
def bytes3 (n : Nat) : List Byte := [byteOf (n / 65536), byteOf (n / 256), byteOf n]

/-- Four bytes of an unsigned number. -/
def bytes4 (n : Nat) : List Byte :=
  [byteOf (n / 16777216), byteOf (n / 65536), byteOf (n / 256), byteOf n]

/-- Four bytes of a signed number, two's complement. -/
def signed4 (v : Int) : List Byte := bytes4 (v % 4294967296).toNat

/-- Byte `i` of a list as a number; 0 past its end. -/
def byteAt (bs : List Byte) (i : Nat) : Nat := (bs.getD i 0).toNat

/-- The unsigned number in the two bytes from `i`. -/
def read2 (bs : List Byte) (i : Nat) : Nat := byteAt bs i * 256 + byteAt bs (i + 1)

/-- The unsigned number in the three bytes from `i`. -/
def read3 (bs : List Byte) (i : Nat) : Nat := read2 bs i * 256 + byteAt bs (i + 2)

/-- The unsigned number in the four bytes from `i`. -/
def read4 (bs : List Byte) (i : Nat) : Nat := read3 bs i * 256 + byteAt bs (i + 3)

/-- The signed number in the four bytes from `i`. -/
def readSigned4 (bs : List Byte) (i : Nat) : Int :=
  if read4 bs i < 2147483648 then (read4 bs i : Int) else (read4 bs i : Int) - 4294967296

end Sys2Proof.Machine
end

