-- ==== Sys2Proof/Machine/State.lean ====
section
/-! DEFINITION. Everything the SC-64's manual says the part holds, as plain data, and the state right
after a hard reset. Lists named as "in flight" hold what one block has sent to another and the other
has not yet taken (00 "Events at blocks"; assumption 5). -/

namespace Sys2Proof.Machine

/-! ### Items that pass between blocks -/

/-- A source a consumer can name: a channel or a slot (00 "Terms and abbreviations"). -/
inductive Source where
  | channel (c : Fin 64)
  | slot (k : Fin 16)
  deriving DecidableEq, Repr

/-- The three reduction modes (section 2.1). -/
inductive SlotMode where
  | mean
  | enhance
  | peak
  deriving DecidableEq, Repr

/-- What an output record carries: one value for MEAN and ENHANCE, a pair for PEAK (R33). -/
inductive OutputData where
  | value (v : Int)
  | peak (max min : Int)
  deriving DecidableEq, Repr

/-- The output record of a slot (R33). -/
structure OutputRecord where
  slot : Fin 16
  mode : SlotMode
  outputIndex : Nat
  firstIndex : Nat
  data : OutputData
  time : Nat
  afterGap : Bool
  deriving DecidableEq, Repr

/-- An item of a channel's or slot's stream (R16, R20, R34). -/
inductive StreamItem where
  | sample (value : Int) (index : Nat)
  | record (r : OutputRecord)
  | mark
  deriving DecidableEq, Repr

/-- A port coming UP or leaving UP, as the blocks behind it are told (R173, R174). -/
inductive LinkChange where
  | leftUp
  | cameUp
  deriving DecidableEq, Repr

/-! ### Ports (chapter 9) -/

/-- Link states (R164). -/
inductive LinkState where
  | down
  | training
  | up
  deriving DecidableEq, Repr

/-- Flow-control symbols (R169). -/
inductive FlowSymbol where
  | hold
  | go
  deriving DecidableEq, Repr

/-- What a port has put on its link: a flow-control symbol, the beginning of a frame, the end of the
frame being sent, or the cutting off of it (R158, R167, R168, R170). -/
inductive LineItem where
  | symbol (x : FlowSymbol)
  | frameBegun (bytes : List Byte)
  | frameSent
  | frameCut
  deriving DecidableEq, Repr

/-- A change of the watched queue's occupancy, with the occupancy after it (R170). -/
inductive OccupancyChange where
  | joined (occupancy : Nat)
  | removed (occupancy : Nat)
  deriving DecidableEq, Repr

/-- The state of one port (R164), its transmitter, its period of symbol repetition (R170), the
occupancy changes in flight to it, and what it has sent so far, oldest first (assumption 14). -/
structure Port where
  link : LinkState
  trainCount : Nat
  heard : Bool
  paused : Bool
  holdSent : Bool
  framesGood : Nat
  crcErrors : Nat
  malformed : Nat
  sending : Option (List Byte)
  flowElapsed : Nat
  occupancy : List OccupancyChange
  line : List LineItem
  deriving DecidableEq, Repr

/-! ### Classifier (chapter 1) -/

/-- Node tracking states (section 1.3). -/
inductive NodeTracking where
  | unseen
  | tracking
  deriving DecidableEq, Repr

/-- One NODE entry (section 1.3). -/
structure NodeEntry where
  state : NodeTracking
  expected : Nat
  accepted : Nat
  gaps : Nat
  missing : Nat
  stale : Nat
  deriving DecidableEq, Repr

/-- Code formats (R2). -/
inductive Format where
  | signed
  | unsigned
  deriving DecidableEq, Repr

/-- Forward policies of a channel (R18). -/
inductive ForwardPolicy where
  | pass
  | thin
  | drop
  deriving DecidableEq, Repr

/-- One CHANNEL entry (section 1.4). -/
structure Channel where
  enabled : Bool
  node : Nat
  input : Nat
  format : Format
  policy : ForwardPolicy
  divisor : Nat
  sampleIndex : Nat
  lastValue : Option Int
  gapMarks : Nat
  deriving DecidableEq, Repr

/-- One entry of a SAMPLE frame (section 1.1). -/
structure SampleEntry where
  input : Nat
  code : Nat
  deriving DecidableEq, Repr

/-- A SAMPLE frame as the classifier sees it, and the forward candidate made of its kept entries
(section 1.1, R19). -/
structure SampleFrame where
  head : Byte
  dest : Byte
  source : Byte
  seq : Nat
  entries : List SampleEntry
  deriving DecidableEq, Repr

/-- What the F-port sends the classifier, in order: SAMPLE frames, and its leaving UP (R172, R173). -/
inductive ClassifierItem where
  | frame (bytes : List Byte)
  | portLeftUp
  deriving DecidableEq, Repr

/-- The classifier: its tables, the part-wide stale-frame count (R8) and what is in flight to it. -/
structure Classifier where
  nodes : Table NodeEntry 30
  channels : Table Channel 64
  staleFrames : Nat
  inbox : List ClassifierItem
  deriving DecidableEq, Repr

/-! ### Reduction unit (chapter 2) -/

/-- Slot triggers (section 2.1). -/
inductive SlotTrigger where
  | continuous
  | gated
  deriving DecidableEq, Repr

/-- Slot states (section 2.1). -/
inductive SlotState where
  | off
  | idle
  | accum
  deriving DecidableEq, Repr

/-- The values taken in a window that has at least one (section 2.1, R27). -/
structure Window where
  sum : Int
  max : Int
  min : Int
  firstIndex : Nat
  deriving DecidableEq, Repr

/-- One SLOT entry with its partial window and after-gap flag (section 2.1), the stream items in
flight to it, and the number of STARTs from rules in flight to it. An empty partial window is
`none`. -/
structure Slot where
  enabled : Bool
  channel : Fin 64
  mode : SlotMode
  exponent : Nat
  trigger : SlotTrigger
  toEgress : Bool
  notifyBroken : Bool
  state : SlotState
  count : Nat
  outputIndex : Nat
  brokenWindows : Nat
  window : Option Window
  afterGap : Bool
  inbox : List StreamItem
  starts : Nat
  deriving DecidableEq, Repr

/-! ### Watch unit (chapter 3) -/

/-- Kinds of source (section 3.1, section 4.2). -/
inductive SourceKind where
  | channel
  | slot
  deriving DecidableEq, Repr

/-- The part of a PEAK pair a rule takes (R47). -/
inductive PeakPart where
  | max
  | min
  deriving DecidableEq, Repr

/-- The five criteria (R49). -/
inductive Criterion where
  | above
  | below
  | inside
  | outside
  | step
  deriving DecidableEq, Repr

/-- The watch machine's states (R51). -/
inductive RuleState where
  | off
  | clear
  | pending
  | active
  | leaving
  deriving DecidableEq, Repr

/-- One RULE entry (section 3.1), and the stream items in flight to it. -/
structure Rule where
  enabled : Bool
  sourceKind : SourceKind
  sourceIndex : Fin 64
  peakPart : PeakPart
  criterion : Criterion
  low : Int
  high : Int
  hyst : Nat
  persistence : Nat
  eventOnAssert : Bool
  eventOnRelease : Bool
  freezeRing : Option (Fin 8)
  startSlot : Option (Fin 16)
  state : RuleState
  runCount : Nat
  previous : Option Int
  asserts : Nat
  lastAssert : Option Nat
  inbox : List StreamItem
  deriving DecidableEq, Repr

/-- What a step of the watch machine calls for (R51). -/
inductive RuleAction where
  | none
  | assert
  | release
  deriving DecidableEq, Repr

/-! ### Capture unit (chapter 4) -/

/-- Capture memory (R65), as the words that are not 0, by rising word offset. -/
structure CaptureMemory where
  cells : List (Nat × Int)
  deriving DecidableEq, Repr

/-- Ring modes (section 4.2). -/
inductive RingMode where
  | stream
  | snapshot
  deriving DecidableEq, Repr

/-- Overflow policies (section 4.2). -/
inductive OverflowPolicy where
  | stall
  | overwrite
  deriving DecidableEq, Repr

/-- The two halves of a STREAM ring (section 4.2). -/
inductive HalfId where
  | a
  | b
  deriving DecidableEq, Repr

/-- States of a half (section 4.4). -/
inductive HalfState where
  | empty
  | filling
  | full
  | reading
  deriving DecidableEq, Repr

/-- One half of a STREAM ring (R73). -/
structure Half where
  state : HalfState
  fill : Nat
  gapped : Bool
  readOnce : Bool
  deriving DecidableEq, Repr

/-- Writer states (section 4.4). -/
inductive Writer where
  | off
  | filling (h : HalfId)
  | stalled (h : HalfId)
  deriving DecidableEq, Repr

/-- The STREAM state of a ring (R73). -/
structure StreamState where
  writer : Writer
  halfA : Half
  halfB : Half
  heldMark : Bool
  deriving DecidableEq, Repr

/-- What froze a snapshot (R81). -/
inductive Trigger where
  | rule (k : Fin 32)
  | manual
  deriving DecidableEq, Repr

/-- States of a SNAPSHOT ring (section 4.5). -/
inductive SnapState where
  | off
  | run
  | countdown
  | frozen
  | reading
  deriving DecidableEq, Repr

/-- A pending trigger and its time mark (R81). -/
structure PendingTrigger where
  trigger : Trigger
  time : Nat
  deriving DecidableEq, Repr

/-- A capture record (R81). -/
structure CaptureRecord where
  trigger : Trigger
  triggerTime : Nat
  freezeTime : Nat
  valid : Nat
  endPosition : Nat
  deriving DecidableEq, Repr

/-- The SNAPSHOT state of a ring (R81). -/
structure SnapshotState where
  state : SnapState
  position : Nat
  valid : Nat
  remaining : Nat
  gapped : Bool
  pending : Option PendingTrigger
  record : Option CaptureRecord
  deriving DecidableEq, Repr

/-- One RING entry (section 4.2), the stream items in flight to it, and the rules whose FREEZEs are
in flight to it (R56). -/
structure Ring where
  enabled : Bool
  base : Nat
  length : Nat
  mode : RingMode
  sourceKind : SourceKind
  sourceIndex : Fin 64
  overflow : OverflowPolicy
  postCount : Nat
  notify : Bool
  dropped : Nat
  lost : Nat
  stream : StreamState
  snapshot : SnapshotState
  inbox : List StreamItem
  freezes : List (Fin 32)
  deriving DecidableEq, Repr

/-! ### Readout engine (chapter 5) -/

/-- What a readout reads (00 "Terms and abbreviations"). -/
inductive RingPart where
  | halfA
  | halfB
  | snapshot
  deriving DecidableEq, Repr

/-- The readout record of a readout in progress (R91). -/
structure ReadoutRecord where
  id : Nat
  ring : Fin 8
  part : RingPart
  total : Nat
  start : Nat
  gapped : Bool
  nextOffset : Nat
  wordsSent : Nat
  framesQueued : Nat
  lastQueued : Bool
  deriving DecidableEq, Repr

/-- What the record keeps of an aborted readout (R101 step 3, R102). -/
structure TerminatingRecord where
  id : Nat
  ring : Fin 8
  part : RingPart
  gapped : Bool
  wordsSent : Nat
  pending : Bool
  deriving DecidableEq, Repr

/-- The engine's three states, with the record it holds while it is not FREE (R91). -/
inductive EngineState where
  | free
  | sending (r : ReadoutRecord)
  | terminating (r : TerminatingRecord)
  deriving DecidableEq, Repr

/-- The readout engine (R91). -/
structure Readout where
  engine : EngineState
  nextId : Nat
  completed : Nat
  aborted : Nat
  deriving DecidableEq, Repr

/-! ### Timers (R4) -/

/-- A timer, stopped or running with the microseconds left before it expires. -/
inductive Timer where
  | stopped
  | running (remaining : Nat)
  deriving DecidableEq, Repr

/-! ### Event unit (chapter 6) -/

/-- The ten kinds of event record (R106). -/
inductive EventKind where
  | started
  | linkState
  | gap
  | slotBroken
  | ruleAssert
  | ruleRelease
  | halfFull
  | halfLost
  | ringFrozen
  | loss
  deriving DecidableEq, Repr

/-- An enqueue request in flight to the event unit: who made it, and the fields of the record it asks
for (R105, R107). -/
structure EventRequest where
  requester : Requester
  kind : EventKind
  subject : Nat
  channel : Option (Fin 64)
  value : Option Int
  count : Option Nat
  time : Nat
  deriving DecidableEq, Repr

/-- Delivery states of a record (R105). -/
inductive SendState where
  | unsent
  | sent
  deriving DecidableEq, Repr

/-- An event record (R105). -/
structure EventRecord where
  serial : Nat
  kind : EventKind
  subject : Nat
  channel : Option (Fin 64)
  value : Option Int
  count : Option Nat
  time : Nat
  sent : SendState
  deriving DecidableEq, Repr

/-- Delivery states of the event unit (section 6.4). -/
inductive Delivery where
  | active
  | failed
  | suspended
  deriving DecidableEq, Repr

/-- The event unit: its queue (oldest first), counters, delivery state and timer (chapter 6), and what
is in flight to it. -/
structure EventUnit where
  queue : List EventRecord
  serial : Nat
  pendingLoss : Nat
  lifetimeLoss : Nat
  delivery : Delivery
  retry : Nat
  timer : Timer
  requests : List EventRequest
  linkChanges : List LinkChange
  deriving DecidableEq, Repr

/-! ### Management unit (chapter 7) -/

/-- Reply statuses (00 "Reply statuses"). -/
inductive Status where
  | ok
  | accepted
  | busy
  | state
  | badValue
  | badTable
  | liveField
  | duplicateKey
  | dependent
  | overlap
  | badLength
  | unknownRequest
  deriving DecidableEq, Repr

/-- The tables a request can name (R133). -/
inductive TableId where
  | channel
  | node
  | slot
  | rule
  | ring
  | global
  deriving DecidableEq, Repr

/-- A request as its payload gives it (section 10.3). -/
structure Request where
  tag : Byte
  number : Byte
  code : Byte
  args : List Byte
  deriving DecidableEq, Repr

/-- A reply (R130). -/
structure Reply where
  tag : Byte
  number : Byte
  code : Byte
  status : Status
  results : List Byte
  deriving DecidableEq, Repr

/-- A reply-cache entry that is not empty (R131). -/
structure CachedReply where
  number : Byte
  reply : Reply
  deriving DecidableEq, Repr

/-- Unknown-channel policies (R17). -/
inductive UnknownPolicy where
  | pass
  | drop
  deriving DecidableEq, Repr

/-- The GLOBAL table (section 7.5). -/
structure Global where
  nodeId : Nat
  unknownPolicy : UnknownPolicy
  eventWindow : Nat
  retransmitTimeout : Nat
  retryLimit : Nat
  reducedHold : Nat
  dtStreak : Nat
  deriving DecidableEq, Repr

/-- The blocks that take a share of READ_STATUS, CLEAR_COUNTERS or RESTART before the management unit
replies (R140, R141, R142, R145). -/
inductive Block where
  | classifier
  | reduction
  | watch
  | capture
  | readout
  | events
  | egress
  | fPort
  | cPort
  deriving DecidableEq, Repr

/-- What a port gives READ_STATUS: its three counts and its state (R140). -/
structure PortReading where
  framesGood : Nat
  crcErrors : Nat
  malformed : Nat
  link : LinkState
  deriving DecidableEq, Repr

/-- What the egress scheduler gives READ_STATUS: its four counts and the occupancies of FW, DT, MR and OB
(R140). -/
structure EgressReading where
  fwDrops : Nat
  downDiscards : Nat
  reducedDropped : Nat
  obDrops : Nat
  fw : Nat
  dt : Nat
  mr : Nat
  ob : Nat
  deriving DecidableEq, Repr

/-- What the event unit gives READ_STATUS: the lifetime loss, the records queued and SENT, the delivery
state and the retry count (R140). -/
structure EventReading where
  lifetimeLoss : Nat
  records : Nat
  sent : Nat
  delivery : Delivery
  retry : Nat
  deriving DecidableEq, Repr

/-- What the readout engine gives READ_STATUS: its two counts, its READOUT frames in DT, and its state
and readout id as section 10.3 numbers them (R140). -/
structure ReadoutReading where
  completed : Nat
  aborted : Nat
  inDt : Nat
  state : Nat
  id : Nat
  deriving DecidableEq, Repr

/-- What the owning blocks have given the READ_STATUS being executed (R140, R141). The classifier gives
its stale-frame count. -/
structure Readings where
  fPort : PortReading
  cPort : PortReading
  egress : EgressReading
  events : EventReading
  classifier : Nat
  readout : ReadoutReading
  deriving DecidableEq, Repr

/-- How far the request being executed has come among the blocks that take part in it: those that have
taken their share, in that order, and what they have given (R129, R141, R142, R145). -/
structure Shares where
  taken : List Block
  readings : Readings
  deriving DecidableEq, Repr

/-- The management unit: reply cache, the payload of the request being executed and the shares taken in
it, the pending-request list, and GLOBAL (chapter 7). -/
structure Management where
  cache : Table (Option CachedReply) 4
  current : Option (List Byte)
  shares : Shares
  waiting : List (List Byte)
  global : Global
  deriving DecidableEq, Repr

/-! ### Egress scheduler (chapter 8) -/

/-- A READOUT frame (R98). -/
structure ReadoutFrame where
  id : Nat
  ring : Fin 8
  part : RingPart
  offset : Nat
  words : List Int
  gapped : Bool
  last : Bool
  aborted : Bool
  deriving DecidableEq, Repr

/-- A frame of DT (section 8.4). -/
inductive DtFrame where
  | reduced (records : List OutputRecord)
  | readout (f : ReadoutFrame)
  deriving DecidableEq, Repr

/-- A reply waiting in the place of its tag (R157). -/
structure MrReply where
  place : Fin 4
  reply : Reply
  deriving DecidableEq, Repr

/-- The four claimants of the C-port transmitter (R158). -/
inductive Claimant where
  | mr
  | ev
  | dt
  | fw
  deriving DecidableEq, Repr

/-- The egress scheduler: its queues (oldest first), the assembler's open frame (empty: no open
frame) and hold timer, the FW streak, its counts, whether FW, DT and MR are held empty (R160), and
what is in flight to it. -/
structure Egress where
  fw : List (List Byte)
  dt : List DtFrame
  mr : List MrReply
  ob : List (List Byte)
  openFrame : List OutputRecord
  holdTimer : Timer
  streak : Nat
  fwDrops : Nat
  downDiscards : Nat
  reducedDropped : Nat
  obDrops : Nat
  held : Bool
  candidates : List SampleFrame
  others : List (List Byte)
  records : List OutputRecord
  cChanges : List LinkChange
  fLosses : Nat
  deriving DecidableEq, Repr

/-! ### The whole part -/

/-- Whether hard-reset initialisation has completed (R165). -/
inductive Phase where
  | initialising
  | operating
  deriving DecidableEq, Repr

/-- The state of the part, the number of free choices it has made (assumption 24), and the queue of
commands waiting for it, first in, first out. -/
structure State where
  phase : Phase
  straps : Fin 16
  timebase : Nat
  fPort : Port
  cPort : Port
  classifier : Classifier
  slots : Table Slot 16
  rules : Table Rule 32
  rings : Table Ring 8
  memory : CaptureMemory
  readout : Readout
  events : EventUnit
  egress : Egress
  management : Management
  choices : Nat
  pending : List Instr
  deriving DecidableEq, Repr

/-! ### Why a step can stop -/

/-- Faults of the model. -/
inductive Fault where
  /-- Raised by the capture unit and the readout engine (RING_TAKE_ITEM, READ_RING,
  READOUT_FRAME_PRODUCE, ARBITER_GRANT, C_PORT_COMING_UP_EGRESS) where a word offset is outside
  capture memory's 65,536 words (R65). Safe: the model stops; no state that keeps the ring ranges
  of R67 raises it. -/
  | outsideCaptureMemory
  deriving DecidableEq, Repr

/-- Refusals of the model. -/
inductive Refusal where
  /-- A command that has no meaning yet, by its mnemonic. Raised by no arm of `exec`. Safe. -/
  | notModelled (mnemonic : String)
  deriving DecidableEq, Repr

/-! ### The state right after a hard reset -/

/-- A port at hard reset (R164): DOWN, every item at its hard-reset value. -/
def Port.reset : Port where
  link := .down
  trainCount := 0
  heard := false
  paused := false
  holdSent := false
  framesGood := 0
  crcErrors := 0
  malformed := 0
  sending := none
  flowElapsed := 0
  occupancy := []
  line := []

/-- A NODE entry at hard reset (R5). -/
def NodeEntry.reset : NodeEntry where
  state := .unseen
  expected := 0
  accepted := 0
  gaps := 0
  missing := 0
  stale := 0

/-- A CHANNEL entry at hard reset (section 1.4). -/
def Channel.reset : Channel where
  enabled := false
  node := 0
  input := 0
  format := .signed
  policy := .pass
  divisor := 2
  sampleIndex := 0
  lastValue := none
  gapMarks := 0

/-- A SLOT entry at hard reset (section 2.1, R24). -/
def Slot.reset : Slot where
  enabled := false
  channel := 0
  mode := .mean
  exponent := 2
  trigger := .continuous
  toEgress := false
  notifyBroken := false
  state := .off
  count := 0
  outputIndex := 0
  brokenWindows := 0
  window := none
  afterGap := false
  inbox := []
  starts := 0

/-- A RULE entry at hard reset (section 3.1, R43). -/
def Rule.reset : Rule where
  enabled := false
  sourceKind := .channel
  sourceIndex := 0
  peakPart := .max
  criterion := .above
  low := 0
  high := 0
  hyst := 0
  persistence := 1
  eventOnAssert := true
  eventOnRelease := false
  freezeRing := none
  startSlot := none
  state := .off
  runCount := 0
  previous := none
  asserts := 0
  lastAssert := none
  inbox := []

/-- An EMPTY half with fill 0 and its flags clear (R68). -/
def Half.reset : Half where
  state := .empty
  fill := 0
  gapped := false
  readOnce := false

/-- The STREAM state of a ring at hard reset (R68). -/
def StreamState.reset : StreamState where
  writer := .off
  halfA := Half.reset
  halfB := Half.reset
  heldMark := false

/-- The SNAPSHOT state of a ring at hard reset (R68). -/
def SnapshotState.reset : SnapshotState where
  state := .off
  position := 0
  valid := 0
  remaining := 0
  gapped := false
  pending := none
  record := none

/-- A RING entry at hard reset (section 4.2, R68). -/
def Ring.reset : Ring where
  enabled := false
  base := 0
  length := 0
  mode := .stream
  sourceKind := .channel
  sourceIndex := 0
  overflow := .stall
  postCount := 0
  notify := false
  dropped := 0
  lost := 0
  stream := StreamState.reset
  snapshot := SnapshotState.reset
  inbox := []
  freezes := []

/-- The readout engine at hard reset (R91). -/
def Readout.reset : Readout where
  engine := .free
  nextId := 0
  completed := 0
  aborted := 0

/-- The event unit at hard reset, before STARTED(HARD) is queued (R112, R114). -/
def EventUnit.reset : EventUnit where
  queue := []
  serial := 0
  pendingLoss := 0
  lifetimeLoss := 0
  delivery := .suspended
  retry := 0
  timer := .stopped
  requests := []
  linkChanges := []

/-- The egress scheduler at hard reset (R148, R149); the C-port is DOWN, so it holds FW, DT and MR
empty (R160). -/
def Egress.reset : Egress where
  fw := []
  dt := []
  mr := []
  ob := []
  openFrame := []
  holdTimer := .stopped
  streak := 0
  fwDrops := 0
  downDiscards := 0
  reducedDropped := 0
  obDrops := 0
  held := true
  candidates := []
  others := []
  records := []
  cChanges := []
  fLosses := 0

/-- GLOBAL at hard reset, with the node id from the straps (R127, R137). -/
def Global.reset (straps : Fin 16) : Global where
  nodeId := straps.val + 1
  unknownPolicy := .pass
  eventWindow := 8
  retransmitTimeout := 20
  retryLimit := 4
  reducedHold := 4
  dtStreak := 4

/-- No share taken. What a block has not given yet is read by nothing; the values of a part right after
a hard reset stand there (assumption 7). -/
def Shares.reset : Shares where
  taken := []
  readings := {
    fPort := ⟨0, 0, 0, .down⟩
    cPort := ⟨0, 0, 0, .down⟩
    egress := ⟨0, 0, 0, 0, 0, 0, 0, 0⟩
    events := ⟨0, 0, 0, .suspended, 0⟩
    classifier := 0
    readout := ⟨0, 0, 0, 0, 0⟩ }

/-- The management unit at hard reset (R129, R132, R137). -/
def Management.reset (straps : Fin 16) : Management where
  cache := Table.replicate 4 none
  current := none
  shares := Shares.reset
  waiting := []
  global := Global.reset straps

/-- The classifier at hard reset (R5, R8, R10). -/
def Classifier.reset : Classifier where
  nodes := Table.replicate 30 NodeEntry.reset
  channels := Table.replicate 64 Channel.reset
  staleFrames := 0
  inbox := []

/-- Every block at its hard-reset values with the given straps, initialisation still to complete
(R165). The timebase is not read before initialisation completes (R3); 0 is a DESIGN CHOICE
(assumption 2). -/
def State.resetWith (straps : Fin 16) : State where
  phase := .initialising
  straps := straps
  timebase := 0
  fPort := Port.reset
  cPort := Port.reset
  classifier := Classifier.reset
  slots := Table.replicate 16 Slot.reset
  rules := Table.replicate 32 Rule.reset
  rings := Table.replicate 8 Ring.reset
  memory := ⟨[]⟩
  readout := Readout.reset
  events := EventUnit.reset
  egress := Egress.reset
  management := Management.reset straps
  choices := 0
  pending := []

/-- The part right after its power-on hard reset. The straps are an input; strap value 0 is a DESIGN
CHOICE (assumption 1). -/
def State.reset : State := State.resetWith 0

end Sys2Proof.Machine
end

