-- ==== Sys2Proof/Machine/Flags.lean ====
section
/-! DEFINITION. Every flag byte and enumeration byte of chapter 10, both ways. -/

namespace Sys2Proof.Machine

/-! ### Flag bytes -/

/-- The presence flags of an event record: bit 0 value present, bit 1 index or count present
(section 10.4). -/
def EventRecord.presence (r : EventRecord) : Nat :=
  (if r.value.isSome then 1 else 0) + (if r.count.isSome then 2 else 0)

/-- The flags of a reduced record: bits 0..1 the mode, bit 2 after gap (section 10.4). -/
def OutputRecord.flags (r : OutputRecord) : Nat :=
  (match r.mode with
    | .mean => 0
    | .enhance => 1
    | .peak => 2) + (if r.afterGap then 4 else 0)

/-- READOUT flags: bit 0 LAST, bit 1 ABORTED, bit 2 GAPPED (section 10.4). -/
def ReadoutFrame.flags (f : ReadoutFrame) : Nat :=
  (if f.last then 1 else 0) + (if f.aborted then 2 else 0) + (if f.gapped then 4 else 0)

/-- The flags of a half: bit 0 gapped, bit 1 read-once (section 10.5). -/
def Half.flags (h : Half) : Nat := (if h.gapped then 1 else 0) + (if h.readOnce then 2 else 0)

/-! ### Code values: from the part to the link -/

/-- Status codes (section 10.3). -/
def Status.code : Status → Nat
  | .ok => 0x00
  | .accepted => 0x01
  | .busy => 0x02
  | .state => 0x03
  | .badValue => 0x04
  | .badTable => 0x05
  | .liveField => 0x06
  | .duplicateKey => 0x07
  | .dependent => 0x08
  | .overlap => 0x09
  | .badLength => 0x0A
  | .unknownRequest => 0x0B

/-- Event kinds (section 10.4). -/
def EventKind.code : EventKind → Nat
  | .started => 1
  | .linkState => 2
  | .gap => 3
  | .slotBroken => 4
  | .ruleAssert => 5
  | .ruleRelease => 6
  | .halfFull => 7
  | .halfLost => 8
  | .ringFrozen => 9
  | .loss => 10

/-- Delivery states in READ_STATUS (section 10.3). -/
def Delivery.code : Delivery → Nat
  | .active => 0
  | .failed => 1
  | .suspended => 2

/-- Readout engine states in READ_STATUS (section 10.3). -/
def EngineState.code : EngineState → Nat
  | .free => 0
  | .sending _ => 1
  | .terminating _ => 2

/-- Port states in READ_STATUS (section 10.3). -/
def LinkState.code : LinkState → Nat
  | .down => 0
  | .training => 1
  | .up => 2

/-- Ring parts (section 10.3). -/
def RingPart.code : RingPart → Nat
  | .halfA => 0
  | .halfB => 1
  | .snapshot => 2

/-- Node tracking states (section 10.5). -/
def NodeTracking.code : NodeTracking → Nat
  | .unseen => 0
  | .tracking => 1

/-- Formats (section 10.5). -/
def Format.code : Format → Nat
  | .signed => 0
  | .unsigned => 1

/-- Forward policies (section 10.5). -/
def ForwardPolicy.code : ForwardPolicy → Nat
  | .pass => 0
  | .thin => 1
  | .drop => 2

/-- Slot modes (section 10.5). -/
def SlotMode.code : SlotMode → Nat
  | .mean => 0
  | .enhance => 1
  | .peak => 2

/-- Slot triggers (section 10.5). -/
def SlotTrigger.code : SlotTrigger → Nat
  | .continuous => 0
  | .gated => 1

/-- Slot states (section 10.5). -/
def SlotState.code : SlotState → Nat
  | .off => 0
  | .idle => 1
  | .accum => 2

/-- Source kinds (section 10.5). -/
def SourceKind.code : SourceKind → Nat
  | .channel => 0
  | .slot => 1

/-- Peak parts (section 10.5). -/
def PeakPart.code : PeakPart → Nat
  | .max => 0
  | .min => 1

/-- Criteria (section 10.5). -/
def Criterion.code : Criterion → Nat
  | .above => 0
  | .below => 1
  | .inside => 2
  | .outside => 3
  | .step => 4

/-- Rule states (section 10.5). -/
def RuleState.code : RuleState → Nat
  | .off => 0
  | .clear => 1
  | .pending => 2
  | .active => 3
  | .leaving => 4

/-- Ring modes (section 10.5). -/
def RingMode.code : RingMode → Nat
  | .stream => 0
  | .snapshot => 1

/-- Overflow policies (section 10.5). -/
def OverflowPolicy.code : OverflowPolicy → Nat
  | .stall => 0
  | .overwrite => 1

/-- Half states (section 10.5). -/
def HalfState.code : HalfState → Nat
  | .empty => 0
  | .filling => 1
  | .full => 2
  | .reading => 3

/-- Writer states (section 10.5). -/
def Writer.code : Writer → Nat
  | .off => 0
  | .filling .a => 1
  | .filling .b => 2
  | .stalled .a => 3
  | .stalled .b => 4

/-- Snapshot states (section 10.5). -/
def SnapState.code : SnapState → Nat
  | .off => 0
  | .run => 1
  | .countdown => 2
  | .frozen => 3
  | .reading => 4

/-- Trigger bytes: 0..31 a rule, 255 MANUAL (section 10.5). -/
def Trigger.code : Trigger → Nat
  | .rule k => k.val
  | .manual => 255

/-- The value of a RING_FROZEN record: the trigger rule, or −1 for MANUAL (R90). -/
def Trigger.eventValue : Trigger → Int
  | .rule k => (k.val : Int)
  | .manual => -1

/-- Unknown-channel policies (section 10.5). -/
def UnknownPolicy.code : UnknownPolicy → Nat
  | .pass => 0
  | .drop => 1

/-! ### Code values: from the link to the part (R179: a byte that names no value is refused) -/

/-- A flag byte (section 10.5). -/
def flagOf (n : Nat) : Option Bool :=
  if n = 0 then some false else if n = 1 then some true else none

/-- Table codes (section 10.3). -/
def tableOf (n : Nat) : Option TableId :=
  if n = 1 then some .channel else if n = 2 then some .node else if n = 3 then some .slot
  else if n = 4 then some .rule else if n = 5 then some .ring else if n = 6 then some .global
  else none

/-- Format codes. -/
def formatOf (n : Nat) : Option Format :=
  if n = 0 then some .signed else if n = 1 then some .unsigned else none

/-- Forward-policy codes. -/
def policyOf (n : Nat) : Option ForwardPolicy :=
  if n = 0 then some .pass else if n = 1 then some .thin else if n = 2 then some .drop else none

/-- Slot-mode codes. -/
def slotModeOf (n : Nat) : Option SlotMode :=
  if n = 0 then some .mean else if n = 1 then some .enhance else if n = 2 then some .peak else none

/-- Slot-trigger codes. -/
def slotTriggerOf (n : Nat) : Option SlotTrigger :=
  if n = 0 then some .continuous else if n = 1 then some .gated else none

/-- Source-kind codes. -/
def sourceKindOf (n : Nat) : Option SourceKind :=
  if n = 0 then some .channel else if n = 1 then some .slot else none

/-- Peak-part codes. -/
def peakPartOf (n : Nat) : Option PeakPart :=
  if n = 0 then some .max else if n = 1 then some .min else none

/-- Criterion codes. -/
def criterionOf (n : Nat) : Option Criterion :=
  if n = 0 then some .above else if n = 1 then some .below else if n = 2 then some .inside
  else if n = 3 then some .outside else if n = 4 then some .step else none

/-- Ring-mode codes. -/
def ringModeOf (n : Nat) : Option RingMode :=
  if n = 0 then some .stream else if n = 1 then some .snapshot else none

/-- Overflow-policy codes. -/
def overflowOf (n : Nat) : Option OverflowPolicy :=
  if n = 0 then some .stall else if n = 1 then some .overwrite else none

/-- Unknown-channel policy codes. -/
def unknownPolicyOf (n : Nat) : Option UnknownPolicy :=
  if n = 0 then some .pass else if n = 1 then some .drop else none

/-- Ring-part codes of READ_RING. -/
def ringPartOf (n : Nat) : Option RingPart :=
  if n = 0 then some .halfA else if n = 1 then some .halfB else if n = 2 then some .snapshot
  else none

/-- Half codes of RELEASE_HALF. -/
def halfOf (n : Nat) : Option HalfId :=
  if n = 0 then some .a else if n = 1 then some .b else none

/-- A number as an entry index below `n`. -/
def indexBelow (n m : Nat) : Option (Fin n) := if h : m < n then some ⟨m, h⟩ else none

/-- An optional entry index: 255 is absent (section 10.5). -/
def optionalIndex (n m : Nat) : Option (Option (Fin n)) :=
  if m = 255 then some none else (indexBelow n m).map some

/-- A NODE index 1..30, as its place in the table (R133). -/
def nodeIndex (m : Nat) : Option (Fin 30) := if m = 0 then none else indexBelow 30 (m - 1)

end Sys2Proof.Machine
end

