-- ==== Sys2Proof/Machine/Format.lean ====
section
/-! DEFINITION. The frames and records of chapter 10: the CRC, the check of a received frame, the
frames the part forms, and the entry records of READ_ENTRY. -/

namespace Sys2Proof.Machine

/-! ### Common header and CRC (section 10.1) -/

/-- One bit of the CRC: generator x^16 + x^12 + x^5 + 1. -/
def crcShift (crc : BitVec 16) : BitVec 16 :=
  if crc.msb then (crc <<< 1) ^^^ 0x1021#16 else crc <<< 1

/-- One byte of the CRC, most significant bit first. -/
def crcByte (crc : BitVec 16) (b : Byte) : BitVec 16 :=
  crcShift (crcShift (crcShift (crcShift (crcShift (crcShift (crcShift (crcShift
    (crc ^^^ (b.setWidth 16 <<< 8)))))))))

/-- The CRC of some bytes: started at FFFFh, no final inversion. -/
def crc16 (bs : List Byte) : BitVec 16 := bs.foldl crcByte 0xFFFF#16

/-- Bytes closed by their CRC, most significant byte first. -/
def withCrc (bs : List Byte) : List Byte := bs ++ bytes2 (crc16 bs).toNat

/-- The eight kinds of frame (section 10.1). -/
abbrev kindSample : Nat := 1
abbrev kindStatus : Nat := 2
abbrev kindRequest : Nat := 3
abbrev kindReply : Nat := 4
abbrev kindEvent : Nat := 5
abbrev kindReduced : Nat := 6
abbrev kindReadout : Nat := 7
abbrev kindCommand : Nat := 8

/-- The kind in the header of a frame. -/
def frameKind (bs : List Byte) : Nat := byteAt bs 0 / 16

/-- The destination node byte of a frame. -/
def frameDest (bs : List Byte) : Nat := byteAt bs 1

/-- The source node byte of a frame. -/
def frameSource (bs : List Byte) : Nat := byteAt bs 2

/-- The payload of a whole frame: its bytes between the common header and the CRC. -/
def framePayload (bs : List Byte) : List Byte := (bs.drop 4).take (bs.length - 6)

/-- Whether the received CRC is the CRC of what stands before it (R171 check 1). -/
def crcGood (bs : List Byte) : Bool :=
  crc16 (bs.take (bs.length - 2)) == BitVec.ofNat 16 (read2 bs (bs.length - 2))

/-- Whether the length check passes (R171 check 2): header and CRC are there, and the header's payload
length is at most 252 and is the number of payload bytes received. -/
def lengthGood (bs : List Byte) : Bool :=
  decide (6 ≤ bs.length) && decide (byteAt bs 3 ≤ 252) && decide (byteAt bs 3 = bs.length - 6)

/-- Whether the kind check passes (R171 check 3). -/
def kindGood (bs : List Byte) : Bool := decide (1 ≤ frameKind bs) && decide (frameKind bs ≤ 8)

/-- A frame the part forms: destination 0, its own node id as source, flags 0 (R176). -/
def formFrame (kind own : Nat) (payload : List Byte) : List Byte :=
  withCrc ([byteOf (kind * 16), byteOf Config.controllerNode, byteOf own, byteOf payload.length]
    ++ payload)

/-! ### SAMPLE frames (section 10.2) -/

/-- The entries of a SAMPLE payload from a byte position on. -/
def sampleEntries (payload : List Byte) : Nat → Nat → List SampleEntry
  | 0, _ => []
  | k + 1, i =>
    ⟨byteAt payload i, read3 payload (i + 1)⟩ :: sampleEntries payload k (i + 4)

/-- A SAMPLE frame read from its bytes; `none` where its count or its payload length fails the check
of R1. -/
def readSampleFrame (bs : List Byte) : Option SampleFrame :=
  let payload := framePayload bs
  let n := byteAt payload 2
  if 1 ≤ n ∧ n ≤ 32 ∧ payload.length = 3 + 4 * n then
    some { head := bs.getD 0 0
           dest := bs.getD 1 0
           source := bs.getD 2 0
           seq := read2 payload 0
           entries := sampleEntries payload n 3 }
  else none

/-- The bytes of one SAMPLE entry. -/
def SampleEntry.bytes (e : SampleEntry) : List Byte := byteOf e.input :: bytes3 e.code

/-- The SAMPLE frame rebuilt from a forward candidate (R151). -/
def SampleFrame.rebuild (c : SampleFrame) : List Byte :=
  let k := c.entries.length
  withCrc ([c.head, c.dest, c.source, byteOf (3 + 4 * k)] ++ bytes2 c.seq ++ [byteOf k]
    ++ c.entries.flatMap SampleEntry.bytes)

/-! ### Frames formed by the part (section 10.4, R178) -/

/-- The 18 bytes of an event record. -/
def EventRecord.bytes (r : EventRecord) : List Byte :=
  bytes2 r.serial
    ++ [byteOf r.kind.code, byteOf r.subject,
        byteOf (match r.channel with
          | some c => c.val
          | none => 255),
        byteOf r.presence]
    ++ bytes4 r.time ++ signed4 (r.value.getD 0) ++ bytes4 (r.count.getD 0)

/-- An EVENT frame of some records (R116). -/
def eventFrame (own : Nat) (rs : List EventRecord) : List Byte :=
  formFrame kindEvent own
    (bytes2 (match rs with
      | r :: _ => r.serial
      | [] => 0) ++ [byteOf rs.length] ++ rs.flatMap EventRecord.bytes)

/-- The 18 bytes of a reduced record (R34). -/
def OutputRecord.bytes (r : OutputRecord) : List Byte :=
  [byteOf r.slot.val, byteOf r.flags] ++ bytes4 r.outputIndex
    ++ (match r.data with
      | .value v => signed4 v ++ bytes4 r.firstIndex
      | .peak max min => signed4 max ++ signed4 min)
    ++ bytes4 r.time

/-- A REDUCED frame of some records (R154). -/
def reducedFrame (own : Nat) (rs : List OutputRecord) : List Byte :=
  formFrame kindReduced own (byteOf rs.length :: rs.flatMap OutputRecord.bytes)

/-- A READOUT frame (R98). -/
def ReadoutFrame.bytes (own : Nat) (f : ReadoutFrame) : List Byte :=
  formFrame kindReadout own
    ([byteOf f.id, byteOf f.ring.val, byteOf f.part.code, byteOf f.flags] ++ bytes2 f.offset
      ++ [byteOf f.words.length] ++ f.words.flatMap signed4)

/-- A frame of DT. -/
def DtFrame.bytes (own : Nat) : DtFrame → List Byte
  | .reduced rs => reducedFrame own rs
  | .readout f => f.bytes own

/-- A REPLY frame (section 10.3). -/
def Reply.bytes (own : Nat) (r : Reply) : List Byte :=
  formFrame kindReply own ([r.tag, r.number, r.code, byteOf r.status.code] ++ r.results)

/-! ### Entry records (section 10.5) -/

/-- An optional value of four bytes with its presence byte. -/
def optional4 (x : Option (List Byte)) : List Byte :=
  match x with
  | some bs => 1 :: bs
  | none => [0, 0, 0, 0, 0]

/-- The CHANNEL record, 17 bytes. -/
def Channel.entryRecord (c : Channel) : List Byte :=
  [boolByte c.enabled, byteOf c.node, byteOf c.input, byteOf c.format.code, byteOf c.policy.code,
    byteOf c.divisor]
    ++ bytes4 c.sampleIndex ++ optional4 (c.lastValue.map signed4) ++ bytes2 c.gapMarks

/-- The NODE record, 19 bytes. -/
def NodeEntry.entryRecord (n : NodeEntry) : List Byte :=
  [byteOf n.state.code] ++ bytes2 n.expected ++ bytes4 n.accepted ++ bytes4 n.gaps
    ++ bytes4 n.missing ++ bytes4 n.stale

/-- The SLOT record, 17 bytes. -/
def Slot.entryRecord (x : Slot) : List Byte :=
  [boolByte x.enabled, byteOf x.channel.val, byteOf x.mode.code, byteOf x.exponent,
    byteOf x.trigger.code, boolByte x.toEgress, boolByte x.notifyBroken, byteOf x.state.code,
    byteOf x.count]
    ++ bytes4 x.outputIndex ++ bytes4 x.brokenWindows

/-- The byte of an optional entry index: 255 when absent. -/
def indexByte {n : Nat} (x : Option (Fin n)) : Byte :=
  match x with
  | some i => byteOf i.val
  | none => 255

/-- The RULE record, 38 bytes. -/
def Rule.entryRecord (r : Rule) : List Byte :=
  [boolByte r.enabled, byteOf r.sourceKind.code, byteOf r.sourceIndex.val, byteOf r.peakPart.code,
    byteOf r.criterion.code]
    ++ signed4 r.low ++ signed4 r.high ++ bytes4 r.hyst
    ++ [byteOf r.persistence, boolByte r.eventOnAssert, boolByte r.eventOnRelease,
      indexByte r.freezeRing, indexByte r.startSlot, byteOf r.state.code, byteOf r.runCount]
    ++ optional4 (r.previous.map signed4) ++ bytes4 r.asserts
    ++ optional4 (r.lastAssert.map bytes4)

/-- The bytes of one half: state, fill, flags. -/
def Half.bytes (h : Half) : List Byte := [byteOf h.state.code] ++ bytes2 h.fill ++ [byteOf h.flags]

/-- The STREAM state group, 10 bytes. -/
def StreamState.bytes (x : StreamState) : List Byte :=
  [byteOf x.writer.code] ++ x.halfA.bytes ++ x.halfB.bytes ++ [boolByte x.heldMark]

/-- The SNAPSHOT state group, 34 bytes. -/
def SnapshotState.bytes (x : SnapshotState) : List Byte :=
  [byteOf x.state.code] ++ bytes2 x.position ++ bytes4 x.valid ++ bytes4 x.remaining
    ++ [boolByte x.gapped]
    ++ (match x.pending with
      | some p => [1, byteOf p.trigger.code] ++ bytes4 p.time
      | none => List.replicate 6 0)
    ++ (match x.record with
      | some c => [1, byteOf c.trigger.code] ++ bytes4 c.triggerTime ++ bytes4 c.freezeTime
          ++ bytes4 c.valid ++ bytes2 c.endPosition
      | none => List.replicate 16 0)

/-- The RING record, 68 bytes. The group of the mode the ring is not in reads as all zeros. -/
def Ring.entryRecord (r : Ring) : List Byte :=
  [boolByte r.enabled] ++ bytes2 r.base ++ bytes4 r.length
    ++ [byteOf r.mode.code, byteOf r.sourceKind.code, byteOf r.sourceIndex.val,
      byteOf r.overflow.code]
    ++ bytes4 r.postCount ++ [boolByte r.notify] ++ bytes4 r.dropped ++ bytes4 r.lost
    ++ (match r.mode with
      | .stream => r.stream.bytes ++ List.replicate 34 0
      | .snapshot => List.replicate 10 0 ++ r.snapshot.bytes)

/-- The GLOBAL record, 7 bytes. -/
def Global.entryRecord (g : Global) : List Byte :=
  [byteOf g.nodeId, byteOf g.unknownPolicy.code, byteOf g.eventWindow, byteOf g.retransmitTimeout,
    byteOf g.retryLimit, byteOf g.reducedHold, byteOf g.dtStreak]

/-- The record length of each table (section 10.5). -/
def TableId.recordLength : TableId → Nat
  | .channel => 17
  | .node => 19
  | .slot => 17
  | .rule => 38
  | .ring => 68
  | .global => 7

end Sys2Proof.Machine
end

