-- ==== Sys2Proof/Machine/Operands.lean ====
section
/-! DEFINITION. The operands of requests: the parts of a REQUEST payload (section 10.3), the argument
lengths of stage 5 of R128, and the fields a WRITE_ENTRY names, decoded and checked field by field
(R134 checks 4 to 6, R179). -/

namespace Sys2Proof.Machine

/-- A request's tag, number, code and arguments; `none` for a payload of fewer than 3 bytes (R128
stage 1). -/
def readRequest (payload : List Byte) : Option Request :=
  match payload with
  | tag :: number :: code :: args => some ⟨tag, number, code, args⟩
  | _ => none

/-- The request codes (section 10.3). -/
abbrev codeIdent : Nat := 0x01
abbrev codeReadEntry : Nat := 0x02
abbrev codeWriteEntry : Nat := 0x03
abbrev codeEnable : Nat := 0x04
abbrev codeDisable : Nat := 0x05
abbrev codeReadStatus : Nat := 0x06
abbrev codeClearCounters : Nat := 0x07
abbrev codeSetTime : Nat := 0x08
abbrev codeReadRing : Nat := 0x09
abbrev codeAbortRead : Nat := 0x0A
abbrev codeReleaseHalf : Nat := 0x0B
abbrev codeFlushRing : Nat := 0x0C
abbrev codeFreezeRing : Nat := 0x0D
abbrev codeRearmRing : Nat := 0x0E
abbrev codeStartSlot : Nat := 0x0F
abbrev codeEventAck : Nat := 0x10
abbrev codeEventResync : Nat := 0x11
abbrev codeRestart : Nat := 0x12

/-- Whether a code names a request: 01h..12h (R177). -/
def codeKnown (code : Nat) : Bool := decide (1 ≤ code) && decide (code ≤ 0x12)

/-- Stage 5 of R128: whether the arguments have the length section 10.3 gives for the code. That of
WRITE_ENTRY is 6 plus the record length of the table its first byte names, and any length of 6 or
more where that byte names no table (R177). -/
def argumentLengthGood (code : Nat) (args : List Byte) : Bool :=
  if code = codeWriteEntry then
    match tableOf (byteAt args 0) with
    | some t => decide (args.length = 6 + t.recordLength)
    | none => decide (6 ≤ args.length)
  else if code = codeReadEntry ∨ code = codeEnable ∨ code = codeDisable ∨ code = codeReadRing
      ∨ code = codeReleaseHalf ∨ code = codeEventAck then
    decide (args.length = 2)
  else if code = codeSetTime then decide (args.length = 4)
  else if code = codeFlushRing ∨ code = codeFreezeRing ∨ code = codeRearmRing
      ∨ code = codeStartSlot then
    decide (args.length = 1)
  else decide (args.length = 0)

/-! ### Field masks (R134 checks 4 and 5; section 10.5 numbers the fields) -/

/-- The fields of a table that WRITE_ENTRY may name: those that exist and are not read-only. -/
def TableId.writable : TableId → Nat
  | .channel => 0x1F
  | .node => 0
  | .slot => 0x3F
  | .rule => 0xFFF
  | .ring => 0xFF
  | .global => 0x7E

/-- The bound fields of a table. -/
def TableId.bound : TableId → Nat
  | .channel => 0x07
  | .node => 0
  | .slot => 0x0F
  | .rule => 0xC0F
  | .ring => 0x1F
  | .global => 0

/-- Check 4 of R134: the mask names some field, and only fields that exist and can be written. -/
def maskGood (t : TableId) (mask : Nat) : Bool :=
  decide (mask ≠ 0) && decide (mask &&& t.writable = mask)

/-- Check 5 of R134: the mask names a bound field. -/
def maskBound (t : TableId) (mask : Nat) : Bool := decide (mask &&& t.bound ≠ 0)

/-- The new value of field `k`: read and checked where the mask names it, else the old one. -/
def field {α : Type} (mask k : Nat) (old : α) (new : Option α) : Option α :=
  if mask.testBit k then new else some old

/-- A number, where it lies in a range. -/
def inRange (lo hi n : Nat) : Option Nat := if lo ≤ n ∧ n ≤ hi then some n else none

/-- A CHANNEL entry after a write of the named fields; `none` where a named value is out of range
(R9). -/
def Channel.write (c : Channel) (mask : Nat) (v : List Byte) : Option Channel :=
  (field mask 0 c.node (inRange 1 30 (byteAt v 1))).bind fun node =>
  (field mask 1 c.input (inRange 0 15 (byteAt v 2))).bind fun input =>
  (field mask 2 c.format (formatOf (byteAt v 3))).bind fun format =>
  (field mask 3 c.policy (policyOf (byteAt v 4))).bind fun policy =>
  (field mask 4 c.divisor (inRange 2 255 (byteAt v 5))).bind fun divisor =>
  some { c with node := node, input := input, format := format, policy := policy,
                divisor := divisor }

/-- A SLOT entry after a write of the named fields; `none` where a named value is out of range
(R23). -/
def Slot.write (x : Slot) (mask : Nat) (v : List Byte) : Option Slot :=
  (field mask 0 x.channel (indexBelow 64 (byteAt v 1))).bind fun channel =>
  (field mask 1 x.mode (slotModeOf (byteAt v 2))).bind fun mode =>
  (field mask 2 x.exponent (inRange 1 8 (byteAt v 3))).bind fun exponent =>
  (field mask 3 x.trigger (slotTriggerOf (byteAt v 4))).bind fun trigger =>
  (field mask 4 x.toEgress (flagOf (byteAt v 5))).bind fun toEgress =>
  (field mask 5 x.notifyBroken (flagOf (byteAt v 6))).bind fun notifyBroken =>
  some { x with channel := channel, mode := mode, exponent := exponent, trigger := trigger,
                toEgress := toEgress, notifyBroken := notifyBroken }

/-- A RULE entry after a write of the named fields; `none` where a named value is out of range
(R42). -/
def Rule.write (r : Rule) (mask : Nat) (v : List Byte) : Option Rule :=
  (field mask 0 r.sourceKind (sourceKindOf (byteAt v 1))).bind fun sourceKind =>
  (field mask 1 r.sourceIndex (indexBelow 64 (byteAt v 2))).bind fun sourceIndex =>
  (field mask 2 r.peakPart (peakPartOf (byteAt v 3))).bind fun peakPart =>
  (field mask 3 r.criterion (criterionOf (byteAt v 4))).bind fun criterion =>
  (field mask 4 r.low (some (readSigned4 v 5))).bind fun low =>
  (field mask 5 r.high (some (readSigned4 v 9))).bind fun high =>
  (field mask 6 r.hyst (inRange 0 2147483647 (read4 v 13))).bind fun hyst =>
  (field mask 7 r.persistence (inRange 1 255 (byteAt v 17))).bind fun persistence =>
  (field mask 8 r.eventOnAssert (flagOf (byteAt v 18))).bind fun eventOnAssert =>
  (field mask 9 r.eventOnRelease (flagOf (byteAt v 19))).bind fun eventOnRelease =>
  (field mask 10 r.freezeRing (optionalIndex 8 (byteAt v 20))).bind fun freezeRing =>
  (field mask 11 r.startSlot (optionalIndex 16 (byteAt v 21))).bind fun startSlot =>
  some { r with sourceKind := sourceKind, sourceIndex := sourceIndex, peakPart := peakPart,
                criterion := criterion, low := low, high := high, hyst := hyst,
                persistence := persistence, eventOnAssert := eventOnAssert,
                eventOnRelease := eventOnRelease, freezeRing := freezeRing,
                startSlot := startSlot }

/-- A multiple of 64 in a range (R67). -/
def multipleOf64 (lo hi n : Nat) : Option Nat :=
  if n % 64 = 0 then inRange lo hi n else none

/-- The relations of R67 on an entry as it would stand after the whole write. -/
def Ring.relationsGood (r : Ring) : Bool :=
  decide (r.base + r.length ≤ Config.captureWords) && decide (r.postCount ≤ r.length)

/-- A RING entry after a write of the named fields; `none` where a named value is out of range or a
relation fails (R67). -/
def Ring.write (r : Ring) (mask : Nat) (v : List Byte) : Option Ring :=
  (field mask 0 r.base (multipleOf64 0 65472 (read2 v 1))).bind fun base =>
  (field mask 1 r.length (multipleOf64 128 65536 (read4 v 3))).bind fun length =>
  (field mask 2 r.mode (ringModeOf (byteAt v 7))).bind fun mode =>
  (field mask 3 r.sourceKind (sourceKindOf (byteAt v 8))).bind fun sourceKind =>
  (field mask 4 r.sourceIndex (indexBelow 64 (byteAt v 9))).bind fun sourceIndex =>
  (field mask 5 r.overflow (overflowOf (byteAt v 10))).bind fun overflow =>
  (field mask 6 r.postCount (some (read4 v 11))).bind fun postCount =>
  (field mask 7 r.notify (flagOf (byteAt v 15))).bind fun notify =>
  let w : Ring := { r with base := base, length := length, mode := mode,
                           sourceKind := sourceKind, sourceIndex := sourceIndex,
                           overflow := overflow, postCount := postCount, notify := notify }
  if w.relationsGood then some w else none

/-- GLOBAL after a write of the named fields; `none` where a named value is out of range (R138). -/
def Global.write (g : Global) (mask : Nat) (v : List Byte) : Option Global :=
  (field mask 1 g.unknownPolicy (unknownPolicyOf (byteAt v 1))).bind fun unknownPolicy =>
  (field mask 2 g.eventWindow (inRange 1 16 (byteAt v 2))).bind fun eventWindow =>
  (field mask 3 g.retransmitTimeout (inRange 1 255 (byteAt v 3))).bind fun retransmitTimeout =>
  (field mask 4 g.retryLimit (inRange 1 15 (byteAt v 4))).bind fun retryLimit =>
  (field mask 5 g.reducedHold (inRange 1 64 (byteAt v 5))).bind fun reducedHold =>
  (field mask 6 g.dtStreak (inRange 1 16 (byteAt v 6))).bind fun dtStreak =>
  some { g with unknownPolicy := unknownPolicy, eventWindow := eventWindow,
                retransmitTimeout := retransmitTimeout, retryLimit := retryLimit,
                reducedHold := reducedHold, dtStreak := dtStreak }

end Sys2Proof.Machine
end

