-- ==== Sys2Proof/Machine/Ops.lean ====
section
/-! DEFINITION. The operations the blocks share: the ports and what they put on their links, enqueue
requests, the offering of stream items, capture memory, timers, replies, and entry updates. -/

namespace Sys2Proof.Machine

/-! ### Entries of the tables -/

/-- Replace one CHANNEL entry. -/
def State.setChannel (s : State) (c : Fin 64) (x : Channel) : State :=
  { s with classifier := { s.classifier with channels := s.classifier.channels.set c x } }

/-- Replace one NODE entry. -/
def State.setNode (s : State) (n : Fin 30) (x : NodeEntry) : State :=
  { s with classifier := { s.classifier with nodes := s.classifier.nodes.set n x } }

/-- Replace one SLOT entry. -/
def State.setSlot (s : State) (k : Fin 16) (x : Slot) : State := { s with slots := s.slots.set k x }

/-- Replace one RULE entry. -/
def State.setRule (s : State) (k : Fin 32) (x : Rule) : State := { s with rules := s.rules.set k x }

/-- Replace one RING entry. -/
def State.setRing (s : State) (k : Fin 8) (x : Ring) : State := { s with rings := s.rings.set k x }

/-- CHANNEL entry `c`. -/
def State.channel (s : State) (c : Fin 64) : Channel := s.classifier.channels.get c

/-- The part's own node id (R127). -/
def State.ownNode (s : State) : Nat := s.management.global.nodeId

/-! ### Ports -/

/-- One of the two ports. -/
def State.port (s : State) (p : PortId) : Port :=
  match p with
  | .f => s.fPort
  | .c => s.cPort

/-- Replace one of the two ports. -/
def State.setPort (s : State) (p : PortId) (x : Port) : State :=
  match p with
  | .f => { s with fPort := x }
  | .c => { s with cPort := x }

/-- Put a flow-control symbol on the link. -/
def Port.sendSymbol (x : Port) (y : FlowSymbol) : Port := { x with line := x.line ++ [.symbol y] }

/-- The symbol that matches the hold-sent flag (R167, R170). -/
def Port.flowSymbol (x : Port) : FlowSymbol := if x.holdSent then .hold else .go

/-- The transmitter begins to send a frame (R158, R163). -/
def Port.beginFrame (x : Port) (bytes : List Byte) : Port :=
  { x with sending := some bytes, line := x.line ++ [.frameBegun bytes] }

/-- The frame being sent, if there is one, is cut off (R165, R168). -/
def Port.cutFrame (x : Port) : Port :=
  match x.sending with
  | some _ => { x with sending := none, line := x.line ++ [.frameCut] }
  | none => x

/-- One more malformed frame charged to a port (R1, R128, R129, R171). -/
def State.chargeMalformed (s : State) (p : PortId) : State :=
  s.setPort p { s.port p with malformed := bump32 (s.port p).malformed }

/-- The scheduler tells a port of a change in its queue's occupancy (R170). -/
def State.tellOccupancy (s : State) (p : PortId) (x : OccupancyChange) : State :=
  s.setPort p { s.port p with occupancy := (s.port p).occupancy ++ [x] }

/-- The high threshold of a port's watched queue (R170). -/
def highThreshold : PortId → Nat
  | .f => Config.fwHigh
  | .c => Config.obHigh

/-- The low threshold of a port's watched queue (R170). -/
def lowThreshold : PortId → Nat
  | .f => Config.fwLow
  | .c => Config.obLow

/-- The hold-sent flag a change of occupancy leads to (R170). -/
def holdSentAfter (p : PortId) (holdSent : Bool) : OccupancyChange → Bool
  | .joined n => holdSent || decide (highThreshold p ≤ n)
  | .removed n => holdSent && decide (lowThreshold p < n)

/-- A port takes one change of occupancy: the flag follows it, and a change of the flag while the port
is UP sends the matching symbol (R170). -/
def Port.takeOccupancy (p : PortId) (x : Port) (o : OccupancyChange) : Port :=
  let y := { x with holdSent := holdSentAfter p x.holdSent o }
  if y.holdSent ≠ x.holdSent ∧ x.link = .up then y.sendSymbol y.flowSymbol else y

/-! ### Enqueue requests (R107) -/

/-- A block sends the event unit an enqueue request. -/
def State.requestEvent (s : State) (r : EventRequest) : State :=
  { s with events := { s.events with requests := s.events.requests ++ [r] } }

/-- A block sends the event unit some enqueue requests, in order. -/
def State.requestEvents (s : State) (rs : List EventRequest) : State :=
  { s with events := { s.events with requests := s.events.requests ++ rs } }

/-- The number a port has in LINK_STATE subjects (R106). -/
def portNumber : PortId → Nat
  | .f => 0
  | .c => 1

/-- The LINK_STATE request of a port for a change (R175). -/
def linkStateRequest (p : PortId) (x : LinkChange) (now : Nat) : EventRequest where
  requester := .port p
  kind := .linkState
  subject := portNumber p * 2 + (match x with
    | .leftUp => 0
    | .cameUp => 1)
  channel := none
  value := none
  count := none
  time := now

/-- The first item of a list that passes a test, and the list without it: how a block takes the oldest
item in flight from one sender. -/
def takeFirst {α : Type} (p : α → Bool) : List α → Option (α × List α)
  | [] => none
  | x :: xs => if p x then some (x, xs) else (takeFirst p xs).map fun (y, ys) => (y, x :: ys)

/-! ### Streams (R16, R34) -/

/-- The source named by a source kind and index: none where a SLOT index is above 15 (R44, R69). -/
def namedSource (kind : SourceKind) (index : Fin 64) : Option Source :=
  match kind with
  | .channel => some (.channel index)
  | .slot => if h : index.val < 16 then some (.slot ⟨index.val, h⟩) else none

/-- The source a rule names. -/
def Rule.source (r : Rule) : Option Source := namedSource r.sourceKind r.sourceIndex

/-- The source a ring names. -/
def Ring.source (r : Ring) : Option Source := namedSource r.sourceKind r.sourceIndex

/-- Whether a slot names a source (R16). -/
def Slot.names (x : Slot) (src : Source) : Bool := decide (src = .channel x.channel)

/-- Whether a rule names a source (R16, R34). -/
def Rule.names (r : Rule) (src : Source) : Bool := decide (r.source = some src)

/-- Whether a ring names a source (R16, R34). -/
def Ring.names (r : Ring) (src : Source) : Bool := decide (r.source = some src)

/-- Whether a slot is an enabled consumer of a source (R16). -/
def Slot.consumes (x : Slot) (src : Source) : Bool := x.enabled && x.names src

/-- Whether a rule is an enabled consumer of a source (R16, R34). -/
def Rule.consumes (r : Rule) (src : Source) : Bool := r.enabled && r.names src

/-- Whether a ring is an enabled consumer of a source (R16, R34). -/
def Ring.consumes (r : Ring) (src : Source) : Bool := r.enabled && r.names src

/-- A source offers an item of its stream: it joins the items in flight to every consumer that names the
source. A consumer takes it or misses it by whether it is enabled when the item reaches it (R16, R20, R25,
R34, R44, R69; assumption 9). -/
def State.offer (s : State) (src : Source) (item : StreamItem) : State :=
  { s with
    slots := s.slots.map fun x =>
      if x.names src then { x with inbox := x.inbox ++ [item] } else x
    rules := s.rules.map fun r =>
      if r.names src then { r with inbox := r.inbox ++ [item] } else r
    rings := s.rings.map fun r =>
      if r.names src then { r with inbox := r.inbox ++ [item] } else r }

/-- What some sources offered before has passed by the consumers of theirs that are not enabled: an
ENABLE that comes now meets none of it (R25, R44, R69; assumption 9). -/
def State.passBy (s : State) (p : Source → Bool) : State :=
  { s with
    slots := s.slots.map fun x =>
      if x.enabled = false ∧ p (.channel x.channel) = true then { x with inbox := [] } else x
    rules := s.rules.map fun r =>
      if r.enabled = false ∧ r.source.any p = true then { r with inbox := [] } else r
    rings := s.rings.map fun r =>
      if r.enabled = false ∧ r.source.any p = true then { r with inbox := [] } else r }

/-- Whether a source is a channel. -/
def Source.isChannel : Source → Bool
  | .channel _ => true
  | .slot _ => false

/-- Whether some enabled consumer names a channel (R12). -/
def State.channelHasConsumer (s : State) (c : Fin 64) : Bool :=
  s.slots.any (fun x => x.consumes (.channel c)) || s.rules.any (fun r => r.consumes (.channel c))
    || s.rings.any (fun r => r.consumes (.channel c))

/-- Whether something enabled still depends on a slot (R26). -/
def State.slotHasDependent (s : State) (k : Fin 16) : Bool :=
  s.rules.any (fun r => r.consumes (.slot k))
    || s.rules.any (fun r => r.enabled && decide (r.startSlot = some k))
    || s.rings.any (fun r => r.consumes (.slot k))

/-- Whether an enabled rule names a ring as its freeze ring (R70). -/
def State.ringHasFreezer (s : State) (k : Fin 8) : Bool :=
  s.rules.any (fun r => r.enabled && decide (r.freezeRing = some k))

/-- Whether a source is enabled (R44, R69). -/
def State.sourceEnabled (s : State) : Option Source → Bool
  | some (.channel c) => (s.channel c).enabled
  | some (.slot k) => (s.slots.get k).enabled
  | none => false

/-! ### The request being executed (R128, R129) -/

/-- The place a tag has in MR and the cache: the tag modulo 4 (R128 stage 2, R157). -/
def tagPlace (tag : Byte) : Fin 4 := ⟨tag.toNat % 4, Nat.mod_lt _ (by decide)⟩

/-- The request being executed, read from its payload. -/
def State.currentRequest (s : State) : Option Request := s.management.current.bind readRequest

/-- The cached reply that answers a request, where its number is that of its tag's cache entry (R128
stage 3). -/
def State.cachedFor (s : State) (q : Request) : Option Reply :=
  match s.management.cache.get (tagPlace q.tag) with
  | some c => if c.number = q.number then some c.reply else none
  | none => none

/-- Whether the request being executed has a code and passes the stages before its execution (R128). -/
def State.executes (s : State) (code : Nat) : Bool :=
  match s.currentRequest with
  | some q =>
    decide (q.code.toNat = code) && decide (q.tag.toNat < Config.tags)
      && (s.cachedFor q).isNone && argumentLengthGood code q.args
  | none => false

/-! ### Capture memory (R65) -/

/-- The word at an offset in a list of the words that are not 0. -/
def cellRead : List (Nat × Int) → Nat → Int
  | [], _ => 0
  | (a, v) :: cs, o => if a = o then v else cellRead cs o

/-- A list of cells with one word written, offsets still rising and no 0 listed. -/
def cellWrite : List (Nat × Int) → Nat → Int → List (Nat × Int)
  | [], o, v => if v = 0 then [] else [(o, v)]
  | (a, w) :: cs, o, v =>
    if o < a then (if v = 0 then (a, w) :: cs else (o, v) :: (a, w) :: cs)
    else if o = a then (if v = 0 then cs else (o, v) :: cs)
    else (a, w) :: cellWrite cs o v

/-- The word at an offset; a word that nothing has written reads 0 (R66). -/
def CaptureMemory.read (m : CaptureMemory) (o : Nat) : Int := cellRead m.cells o

/-- Capture memory with one word written. -/
def CaptureMemory.write (m : CaptureMemory) (o : Nat) (v : Int) : CaptureMemory :=
  ⟨cellWrite m.cells o v⟩

/-- Capture memory with some words written, in order. -/
def CaptureMemory.writeAll (m : CaptureMemory) (ws : List (Nat × Int)) : CaptureMemory :=
  ws.foldl (fun m w => m.write w.1 w.2) m

/-- Whether offsets rise strictly through a list of cells. -/
def cellsRising : List (Nat × Int) → Bool
  | [] => true
  | [_] => true
  | (a, _) :: (b, w) :: cs => decide (a < b) && cellsRising ((b, w) :: cs)

/-- The canonical form: offsets strictly rising and inside the memory, and no word listed as 0. -/
def CaptureMemory.wf (m : CaptureMemory) : Bool :=
  cellsRising m.cells && m.cells.all (fun c => decide (c.1 < Config.captureWords) && decide (c.2 ≠ 0))

/-- Whether every offset lies in capture memory. -/
def offsetsInMemory (os : List Nat) : Bool := os.all fun o => decide (o < Config.captureWords)

/-- The outcome of a command that touches capture memory: a fault where it went outside it. -/
def captureOutcome (x : Option State) : Host.Outcome State Fault Refusal :=
  match x with
  | some s => .next s
  | none => .fault .outsideCaptureMemory

/-! ### Timers (R4) -/

/-- A timer started for a time in milliseconds. -/
def startTimer (millis : Nat) : Timer := .running (millis * Config.microsPerMilli)

/-- One microsecond passes at a timer. -/
def Timer.tick : Timer → Timer
  | .stopped => .stopped
  | .running n => .running (n - 1)

/-- A timer has reached its time of expiry. -/
def Timer.due : Timer → Bool
  | .stopped => false
  | .running n => decide (n = 0)

/-- One microsecond passes at a port: the period of symbol repetition counts while it is UP (R170). -/
def Port.tick (x : Port) : Port :=
  if x.link = .up then { x with flowElapsed := x.flowElapsed + 1 } else x

/-- One microsecond passes (R3, R118, R153, R170). -/
def State.tick (s : State) : State :=
  { s with
    timebase := wrap32 (s.timebase + 1)
    fPort := s.fPort.tick
    cPort := s.cPort.tick
    events := { s.events with timer := s.events.timer.tick }
    egress := { s.egress with holdTimer := s.egress.holdTimer.tick } }

end Sys2Proof.Machine
end

