-- ==== Sys2Proof/Machine/Classifier.lean ====
section
/-! DEFINITION. The classifier (chapter 1): the check of a SAMPLE frame, node tracking, gap marks,
classification and the forward decision. -/

namespace Sys2Proof.Machine

/-- The value of a code under a format (R2). -/
def sampleValue (f : Format) (code : Nat) : Int :=
  match f with
  | .unsigned => (code : Int)
  | .signed => if code < 8388608 then (code : Int) else (code : Int) - 16777216

/-- The forward decision for a sample with index `i` (R18). -/
def keepSample (p : ForwardPolicy) (divisor i : Nat) : Bool :=
  match p with
  | .pass => true
  | .thin => decide (i % divisor = 0)
  | .drop => false

/-- The enabled CHANNEL entry with a key, if there is one (R11: at most one). -/
def State.matchChannel (s : State) (node input : Nat) : Option (Fin 64) :=
  (List.finRange 64).find? fun c =>
    (s.channel c).enabled && decide ((s.channel c).node = node) && decide ((s.channel c).input = input)

/-! ### Gap marks (R20, R22) -/

/-- A gap mark is placed in a channel's stream: counted and offered. -/
def State.placeMark (s : State) (c : Fin 64) : State :=
  (s.setChannel c { s.channel c with gapMarks := bumpGapMarks (s.channel c).gapMarks }).offer
    (.channel c) .mark

/-- A gap mark in every enabled channel that passes a test, in table order. -/
def State.placeMarks (s : State) (p : Channel → Bool) : State :=
  (List.finRange 64).foldl
    (fun s c => if (s.channel c).enabled && p (s.channel c) then s.placeMark c else s) s

/-! ### Node tracking (R6 to R8) -/

/-- How node tracking classes a frame (R6). -/
def NodeEntry.distance (n : NodeEntry) (q : Nat) : Option Nat :=
  match n.state with
  | .unseen => none
  | .tracking => some (seqDistance q n.expected)

/-- Whether node tracking drops a frame as stale or duplicate (R6, R8). -/
def NodeEntry.isStale (n : NodeEntry) (q : Nat) : Bool :=
  match n.distance q with
  | some d => decide (32768 ≤ d)
  | none => false

/-- The size of the gap that a frame reveals, 0 where it reveals none (R6). -/
def NodeEntry.gapSize (n : NodeEntry) (q : Nat) : Nat :=
  match n.distance q with
  | some d => if d < 32768 then d else 0
  | none => 0

/-- The entry after a frame that is processed (R6, R7). -/
def NodeEntry.afterFrame (n : NodeEntry) (q : Nat) : NodeEntry :=
  { n with
    state := .tracking
    expected := wrap16 (q + 1)
    accepted := bump32 n.accepted
    gaps := if n.gapSize q = 0 then n.gaps else bump32 n.gaps
    missing := if n.gapSize q = 0 then n.missing else sat32 (n.missing + n.gapSize q) }

/-- The GAP request for a gap of `d` frames at a node (R7, R106). -/
def gapRequest (node d now : Nat) : EventRequest where
  requester := .classifier
  kind := .gap
  subject := node
  channel := none
  value := none
  count := some d
  time := now

/-- A stale frame is counted twice and dropped (R8). -/
def State.dropStale (s : State) (n : Fin 30) : State :=
  let e := (s.classifier.nodes.get n)
  let s₁ := s.setNode n { e with stale := bump32 e.stale }
  { s₁ with classifier :=
      { s₁.classifier with staleFrames := bump32 s₁.classifier.staleFrames } }

/-- Node tracking of a frame that is processed, with the gap handling of R7: the GAP request and one
mark in every enabled channel of the node. -/
def State.trackNode (s : State) (n : Fin 30) (q : Nat) : State :=
  let e := s.classifier.nodes.get n
  let s₁ := s.setNode n (e.afterFrame q)
  if e.gapSize q = 0 then s₁
  else
    (s₁.requestEvent (gapRequest (n.val + 1) (e.gapSize q) s.timebase)).placeMarks
      fun c => decide (c.node = n.val + 1)

/-! ### Classification (R14 to R19) -/

/-- A channel takes a sample: value, index, last value, and the offer to its consumers (R14). -/
def State.takeSample (s : State) (c : Fin 64) (code : Nat) : State :=
  let ch := s.channel c
  let v := sampleValue ch.format code
  (s.setChannel c { ch with
      sampleIndex := wrap32 (ch.sampleIndex + 1)
      lastValue := some v }).offer (.channel c) (.sample v ch.sampleIndex)

/-- One entry of a frame: taken by its channel, or on the unknown-channel path; with it, whether the
entry is kept (R14, R17, R18). -/
def State.takeEntry (s : State) (node : Nat) (e : SampleEntry) : State × Bool :=
  match s.matchChannel node e.input with
  | some c =>
    (s.takeSample c e.code,
      keepSample (s.channel c).policy (s.channel c).divisor (s.channel c).sampleIndex)
  | none => (s, decide (s.management.global.unknownPolicy = .pass))

/-- The entries of a frame in order, and those of them that are kept (R13, R19). -/
def State.takeEntries (s : State) (node : Nat) : List SampleEntry → State × List SampleEntry
  | [] => (s, [])
  | e :: es =>
    let r := s.takeEntry node e
    let rest := r.1.takeEntries node es
    (rest.1, if r.2 then e :: rest.2 else rest.2)

/-- The kept entries are handed to the scheduler as the frame's forward candidate, if there are any
(R19). -/
def State.handCandidate (s : State) (f : SampleFrame) (kept : List SampleEntry) : State :=
  if kept = [] then s
  else { s with egress :=
    { s.egress with candidates := s.egress.candidates ++ [{ f with entries := kept }] } }

/-- The classifier takes a SAMPLE frame whole (R13). Where it is processed, what earlier frames offered has
passed by the consumers that are not enabled (R25). -/
def State.takeSampleFrame (s : State) (bytes : List Byte) : State :=
  match readSampleFrame bytes, nodeIndex (frameSource bytes) with
  | some f, some n =>
    if frameSource bytes = s.ownNode then s.chargeMalformed .f
    else if (s.classifier.nodes.get n).isStale f.seq then s.dropStale n
    else
      let r := ((s.passBy Source.isChannel).trackNode n f.seq).takeEntries (n.val + 1) f.entries
      r.1.handCandidate f r.2
  | _, _ => s.chargeMalformed .f

/-- The classifier's inbox with its oldest item taken. -/
def State.setInbox (s : State) (items : List ClassifierItem) : State :=
  { s with classifier := { s.classifier with inbox := items } }

/-- SAMPLE_FRAME_TAKEN (R1, R6 to R8, R13 to R19): the next item from the F-port is a SAMPLE frame. -/
def execSampleFrameTaken (s : State) : Host.Outcome State Fault Refusal :=
  match s.classifier.inbox with
  | .frame bytes :: items => .next ((s.setInbox items).takeSampleFrame bytes)
  | _ => .next s

/-- Every NODE entry returns to UNSEEN with expected sequence 0, its counts kept (R21). -/
def State.unseeNodes (s : State) : State :=
  { s with classifier := { s.classifier with
      nodes := s.classifier.nodes.map fun n => { n with state := .unseen, expected := 0 } } }

/-- F_PORT_LEAVING_UP_CLASSIFIER (R21): the next item from the F-port is its leaving UP. -/
def execFPortLeavingUpClassifier (s : State) : Host.Outcome State Fault Refusal :=
  match s.classifier.inbox with
  | .portLeftUp :: items =>
    .next ((((s.setInbox items).passBy Source.isChannel).placeMarks fun _ => true).unseeNodes)
  | _ => .next s

end Sys2Proof.Machine
end

