-- ==== Sys2Proof/Machine/Ports.lean ====
section
/-! DEFINITION. The chain-link ports (chapter 9): training, loss of lock, flow control, received frames
and the end of a sent frame. -/

namespace Sys2Proof.Machine

/-! ### Entering and leaving UP -/

/-- The other blocks are told of the change of a port (R173, R174): of the C-port the scheduler and the
event unit at both changes; of the F-port the classifier and the scheduler at its leaving UP. -/
def State.tellLinkChange (s : State) (p : PortId) (x : LinkChange) : State :=
  match p, x with
  | .c, _ =>
    { s with
      egress := { s.egress with cChanges := s.egress.cChanges ++ [x] }
      events := { s.events with linkChanges := s.events.linkChanges ++ [x] } }
  | .f, .leftUp =>
    { s with
      classifier := { s.classifier with inbox := s.classifier.inbox ++ [.portLeftUp] }
      egress := { s.egress with fLosses := s.egress.fLosses + 1 } }
  | .f, .cameUp => s

/-- The port's own state when it enters UP: paused off, its flow state announced (R164, R167). The
period of symbol repetition starts here (assumption 13). -/
def Port.enterUp (x : Port) : Port :=
  { x with link := .up, paused := false, flowElapsed := 0 }.sendSymbol x.flowSymbol

/-- A port enters UP (R167). -/
def State.enterUp (s : State) (p : PortId) : State :=
  ((s.setPort p (s.port p).enterUp).requestEvent
    (linkStateRequest p .cameUp s.timebase)).tellLinkChange p .cameUp

/-- The port's own state when it leaves UP: through DOWN into TRAINING, the frame being sent cut off,
hold sent kept (R164, R168). -/
def Port.leaveUp (x : Port) : Port :=
  { x.cutFrame with link := .training, trainCount := 0, heard := false, paused := false }

/-- A port leaves UP (R168). -/
def State.leaveUp (s : State) (p : PortId) : State :=
  ((s.setPort p (s.port p).leaveUp).requestEvent
    (linkStateRequest p .leftUp s.timebase)).tellLinkChange p .leftUp

/-! ### Symbols (R166, R168, R169) -/

/-- A TRAIN symbol counted in TRAINING: the count stops at 8, and heard is set while it is 8. -/
def Port.countTrain (x : Port) : Port :=
  { x with
    trainCount := min (x.trainCount + 1) Config.trainTarget
    heard := decide (Config.trainTarget ≤ x.trainCount + 1) }

/-- A break in training: the count returns to 0 and heard to off (R166). -/
def Port.restartTraining (x : Port) : Port := { x with trainCount := 0, heard := false }

/-- The heard flag on the TRAIN symbols that the port is sending, for as long as it stands in TRAINING;
in no other link state does it send them (R166). -/
def Port.trainSent (x : Port) : Option Bool :=
  if x.link = .training then some x.heard else none

/-- RECEIVE_TRAIN (R166, R168). -/
def execReceiveTrain (p : PortId) (heard : Bool) (s : State) : Host.Outcome State Fault Refusal :=
  let x := s.port p
  match x.link with
  | .down => .next s
  | .training =>
    let s₁ := s.setPort p x.countTrain
    if heard = true ∧ Config.trainTarget ≤ x.countTrain.trainCount then .next (s₁.enterUp p)
    else .next s₁
  | .up => if heard then .next s else .next (s.leaveUp p)

/-- UNDECODABLE_SYMBOL (R166); in UP it does not by itself lose lock (R168). -/
def execUndecodableSymbol (p : PortId) (s : State) : Host.Outcome State Fault Refusal :=
  match (s.port p).link with
  | .training => .next (s.setPort p (s.port p).restartTraining)
  | _ => .next s

/-- A HOLD or GO symbol received: in UP it sets or clears paused (R169); in TRAINING it is the
acknowledgement that completes training at count 8 and is otherwise ignored (R166). -/
def State.receiveFlow (s : State) (p : PortId) (paused : Bool) : State :=
  match (s.port p).link with
  | .up => s.setPort p { s.port p with paused := paused }
  | .training =>
    if Config.trainTarget ≤ (s.port p).trainCount then s.enterUp p else s
  | .down => s

/-- RECEIVE_HOLD (R166, R169). -/
def execReceiveHold (p : PortId) (s : State) : Host.Outcome State Fault Refusal :=
  .next (s.receiveFlow p true)

/-- RECEIVE_GO (R166, R169). -/
def execReceiveGo (p : PortId) (s : State) : Host.Outcome State Fault Refusal :=
  .next (s.receiveFlow p false)

/-- LOSS_OF_LOCK (R166, R168). -/
def execLossOfLock (p : PortId) (s : State) : Host.Outcome State Fault Refusal :=
  match (s.port p).link with
  | .up => .next (s.leaveUp p)
  | .training => .next (s.setPort p (s.port p).restartTraining)
  | .down => .next s

/-! ### Received frames (R171, R172) -/

/-- A frame for the field is placed at the tail of OB, or dropped and counted (R162). -/
def State.placeOb (s : State) (bytes : List Byte) : State :=
  if s.egress.ob.length < Config.obCapacity then
    { s with egress := { s.egress with ob := s.egress.ob ++ [bytes] } }.tellOccupancy .c
      (.joined (s.egress.ob.length + 1))
  else { s with egress := { s.egress with obDrops := bump32 s.egress.obDrops } }

/-- A request for the part: executed at once where none is being executed, else one of up to 4 that
wait, else dropped and counted (R129). -/
def State.arriveRequest (s : State) (payload : List Byte) : State :=
  match s.management.current with
  | none => { s with management := { s.management with current := some payload } }
  | some _ =>
    if s.management.waiting.length < Config.pendingCapacity then
      { s with management := { s.management with waiting := s.management.waiting ++ [payload] } }
    else s.chargeMalformed .c

/-- Whether a frame that arrives at the C-port is a broadcast IDENT (R126). -/
def broadcastIdent (bytes : List Byte) : Bool :=
  decide (frameKind bytes = kindRequest) && decide (frameDest bytes = Config.broadcastNode)
    && decide (3 ≤ (framePayload bytes).length)
    && decide (byteAt (framePayload bytes) 2 = codeIdent)

/-- Whether a frame that arrives at the C-port is a request addressed to the part (R126). -/
def addressedRequest (own : Nat) (bytes : List Byte) : Bool :=
  decide (frameKind bytes = kindRequest) && decide (frameDest bytes = own)

/-- A frame that passes the checks is handed on by kind and port (R126, R161, R172). -/
def State.handOn (s : State) (p : PortId) (bytes : List Byte) : State :=
  match p with
  | .f =>
    if frameKind bytes = kindSample then
      { s with classifier := { s.classifier with inbox := s.classifier.inbox ++ [.frame bytes] } }
    else { s with egress := { s.egress with others := s.egress.others ++ [bytes] } }
  | .c =>
    if addressedRequest s.ownNode bytes then s.arriveRequest (framePayload bytes)
    else if broadcastIdent bytes then (s.arriveRequest (framePayload bytes)).placeOb bytes
    else s.placeOb bytes

/-- A port in UP takes a whole frame (R171). -/
def State.takeFrame (s : State) (p : PortId) (bytes : List Byte) : State :=
  if crcGood bytes = false then
    s.setPort p { s.port p with crcErrors := bump32 (s.port p).crcErrors }
  else if lengthGood bytes = false ∨ kindGood bytes = false then s.chargeMalformed p
  else
    (s.setPort p { s.port p with framesGood := bump32 (s.port p).framesGood }).handOn p bytes

/-- FRAME_RECEIVED (R171); outside UP a frame is neither checked nor counted (R165, R166), and fewer
than two bytes are no frame, since no closing CRC has arrived (assumption 15). -/
def execFrameReceived (p : PortId) (bytes : List Byte) (s : State) :
    Host.Outcome State Fault Refusal :=
  if (s.port p).link = .up ∧ 2 ≤ bytes.length then .next (s.takeFrame p bytes) else .next s

/-! ### Flow control (R170) -/

/-- HOLD_SENT_CHANGE (R170): the port takes the oldest change it has been told of. -/
def execHoldSentChange (p : PortId) (s : State) : Host.Outcome State Fault Refusal :=
  match (s.port p).occupancy with
  | [] => .next s
  | o :: os => .next (s.setPort p (Port.takeOccupancy p { s.port p with occupancy := os } o))

/-- FLOW_SYMBOL_REPEAT (R170): at the end of a 1 ms period a port in UP repeats the symbol of its
present flag. -/
def execFlowSymbolRepeat (p : PortId) (s : State) : Host.Outcome State Fault Refusal :=
  let x := s.port p
  if x.link = .up ∧ Config.flowPeriod ≤ x.flowElapsed then
    .next (s.setPort p
      ({ x with flowElapsed := x.flowElapsed - Config.flowPeriod }.sendSymbol x.flowSymbol))
  else .next s

/-! ### The end of a sent frame -/

/-- FRAME_SEND_COMPLETE (R158, R163): the transmitter has sent its frame whole and is free. The next
decision of the arbiter, or the next frame of OB, is a command of its own (assumption 10). -/
def execFrameSendComplete (p : PortId) (s : State) : Host.Outcome State Fault Refusal :=
  match (s.port p).sending with
  | some _ => .next (s.setPort p
      { s.port p with sending := none, line := (s.port p).line ++ [.frameSent] })
  | none => .next s

end Sys2Proof.Machine
end

