-- ==== Sys2Proof/Machine/Events.lean ====
section
/-! DEFINITION. The event unit (chapter 6): the queue and its serials, loss accounting, delivery states,
sending, the retransmit timer, acknowledgement and resynchronisation. -/

namespace Sys2Proof.Machine

/-! ### The queue (R107 to R111) -/

/-- The record made from a request, UNSENT, with a serial (R105, R107). -/
def EventRequest.toRecord (r : EventRequest) (serial : Nat) : EventRecord where
  serial := serial
  kind := r.kind
  subject := r.subject
  channel := r.channel
  value := r.value
  count := r.count
  time := r.time
  sent := .unsent

/-- A record the event unit makes itself, UNSENT, with a serial: LOSS or STARTED (R106). -/
def ownRecord (kind : EventKind) (subject : Nat) (count : Option Nat) (now serial : Nat) :
    EventRecord where
  serial := serial
  kind := kind
  subject := subject
  channel := none
  value := none
  count := count
  time := now
  sent := .unsent

/-- A record joins the tail of the queue and the serial counter advances (R107, R109). -/
def EventUnit.append (e : EventUnit) (r : EventRecord) : EventUnit :=
  { e with queue := e.queue ++ [r], serial := wrap16 (e.serial + 1) }

/-- A LOSS record is queued where the queue has a free place and losses are pending (R111). -/
def EventUnit.settleLoss (e : EventUnit) (now : Nat) : EventUnit :=
  if e.queue.length < Config.eventCapacity ∧ e.pendingLoss ≠ 0 then
    { e.append (ownRecord .loss 0 (some e.pendingLoss) now e.serial) with pendingLoss := 0 }
  else e

/-- A request is queued, or lost and counted where the queue is full (R107, R110). -/
def EventUnit.enqueue (e : EventUnit) (r : EventRequest) : EventUnit :=
  if e.queue.length < Config.eventCapacity then e.append (r.toRecord e.serial)
  else { e with pendingLoss := bump32 e.pendingLoss, lifetimeLoss := bump32 e.lifetimeLoss }

/-- EVENT_ENQUEUE (R107): the event unit takes the oldest request of a requester in flight to it, after
any LOSS record that is due (R111). -/
def execEventEnqueue (r : Requester) (s : State) : Host.Outcome State Fault Refusal :=
  match takeFirst (fun x => decide (x.requester = r)) s.events.requests with
  | some (q, rest) =>
    .next { s with events := ({ s.events with requests := rest }.settleLoss s.timebase).enqueue q }
  | none => .next s

/-- The STARTED record of a hard reset (cause 0) or RESTART (cause 1), at serial 0 with time mark 0, in
a queue just emptied (R112, R113). -/
def EventUnit.started (e : EventUnit) (cause : Nat) : EventUnit :=
  { e with queue := [], serial := 0 }.append (ownRecord .started cause none 0 0)

/-! ### Delivery (R114 to R119) -/

/-- The SENT records of a queue. -/
def sentCount (q : List EventRecord) : Nat := q.countP fun r => decide (r.sent = .sent)

/-- The UNSENT records of a queue. -/
def unsentCount (q : List EventRecord) : Nat := q.countP fun r => decide (r.sent = .unsent)

/-- Every SENT record returned to UNSENT (R114, R118, R122). -/
def returnToUnsent (q : List EventRecord) : List EventRecord := q.map fun r => { r with sent := .unsent }

/-- Delivery after the C-port leaves UP (R114). -/
def EventUnit.suspend (e : EventUnit) : EventUnit :=
  { e with delivery := .suspended, queue := returnToUnsent e.queue, timer := .stopped, retry := 0 }

/-- Delivery after the C-port comes UP (R114): ACTIVE from SUSPENDED. -/
def EventUnit.resume (e : EventUnit) : EventUnit :=
  match e.delivery with
  | .suspended =>
    { e with delivery := .active, queue := returnToUnsent e.queue, timer := .stopped, retry := 0 }
  | _ => e

/-- DELIVERY_SUSPEND (R114): the oldest change of the C-port in flight to the event unit is its leaving
UP. -/
def execDeliverySuspend (s : State) : Host.Outcome State Fault Refusal :=
  match s.events.linkChanges with
  | .leftUp :: xs => .next { s with events := { s.events with linkChanges := xs }.suspend }
  | _ => .next s

/-- DELIVERY_RESUME (R114): the oldest change of the C-port in flight to the event unit is its coming
UP. -/
def execDeliveryResume (s : State) : Host.Outcome State Fault Refusal :=
  match s.events.linkChanges with
  | .cameUp :: xs => .next { s with events := { s.events with linkChanges := xs }.resume }
  | _ => .next s

/-- Whether the event unit has taken every change of the C-port in flight to it and has a record to send
first (R114, R174; assumption 26). -/
def EventUnit.leads (e : EventUnit) : Bool := decide (e.linkChanges = []) && decide (e.queue ≠ [])

/-- Whether the EV class is ready under a window W (R115). -/
def EventUnit.ready (e : EventUnit) (w : Nat) : Bool :=
  decide (e.delivery = .active) && decide (unsentCount e.queue ≠ 0) && decide (sentCount e.queue < w)

/-- How many records the next EVENT frame carries (R116). -/
def EventUnit.frameCount (e : EventUnit) (w : Nat) : Nat :=
  min Config.eventFrameRecords (min (w - sentCount e.queue) (unsentCount e.queue))

/-- The oldest `n` UNSENT records become SENT (R116). -/
def markSent : List EventRecord → Nat → List EventRecord
  | [], _ => []
  | q, 0 => q
  | r :: rs, n + 1 =>
    match r.sent with
    | .sent => r :: markSent rs (n + 1)
    | .unsent => { r with sent := .sent } :: markSent rs n

/-- The records of the next EVENT frame: the oldest UNSENT ones (R116). -/
def EventUnit.frameRecords (e : EventUnit) (w : Nat) : List EventRecord :=
  (e.queue.filter fun r => decide (r.sent = .unsent)).take (e.frameCount w)

/-- The event unit after an EV grant: the frame's records are SENT, and a stopped timer starts (R116). -/
def EventUnit.afterGrant (e : EventUnit) (g : Global) : EventUnit :=
  { e with
    queue := markSent e.queue (e.frameCount g.eventWindow)
    timer := match e.timer with
      | .stopped => startTimer g.retransmitTimeout
      | .running n => .running n }

/-- The event unit after the retransmit timer expires (R118). -/
def EventUnit.timeout (e : EventUnit) (retryLimit : Nat) : EventUnit :=
  if retryLimit < e.retry + 1 then
    { e with retry := e.retry + 1, delivery := .failed, timer := .stopped }
  else { e with retry := e.retry + 1, queue := returnToUnsent e.queue, timer := .stopped }

/-- RETRANSMIT_TIMEOUT (R118): the expiry of a running timer that has reached its time (assumption 4). -/
def execRetransmitTimeout (s : State) : Host.Outcome State Fault Refusal :=
  if s.events.timer.due then
    .next { s with events := s.events.timeout s.management.global.retryLimit }
  else .next s

/-! ### Acknowledgement and resynchronisation (R120, R122) -/

/-- How many records an acknowledgement of a serial names: those up to the SENT record that has it. -/
def ackLength : List EventRecord → Nat → Option Nat
  | [], _ => none
  | r :: rs, serial =>
    if r.serial = serial ∧ r.sent = .sent then some 1 else (ackLength rs serial).map (· + 1)

/-- The timer after an acknowledgement (R119, R120). -/
def EventUnit.timerAfterAck (e : EventUnit) (rest : List EventRecord) (timeout : Nat) : Timer :=
  match e.delivery with
  | .active => if sentCount rest = 0 then .stopped else startTimer timeout
  | _ => e.timer

/-- The event unit after an acknowledgement that removes `n` records (R111, R120). -/
def EventUnit.acked (e : EventUnit) (n timeout now : Nat) : EventUnit :=
  { e with
    queue := e.queue.drop n
    retry := 0
    timer := e.timerAfterAck (e.queue.drop n) timeout }.settleLoss now

/-- The event unit after a resync (R122). -/
def EventUnit.resynced (e : EventUnit) : EventUnit :=
  { e with queue := returnToUnsent e.queue, retry := 0, timer := .stopped, delivery := .active }

/-! ### RESTART (R112, R113, R114) -/

/-- The event unit at RESTART: requests in flight to it stay in flight (R112). -/
def EventUnit.restarted (e : EventUnit) (cUp : Bool) : EventUnit :=
  { e with
    pendingLoss := 0
    lifetimeLoss := 0
    delivery := if cUp then .active else .suspended
    retry := 0
    timer := .stopped }.started 1

end Sys2Proof.Machine
end

