-- ==== Sys2Proof/Machine/Rings.lean ====
section
/-! DEFINITION. The capture unit (chapter 4): the words a ring takes, both ring modes, gap marks and
FREEZEs. A ring's own operations answer the ring, the words it writes to capture memory and the
requests it makes of the event unit. -/

namespace Sys2Proof.Machine

/-! ### Words from the source (R71) -/

/-- The words an item gives, in order (R71). -/
def StreamItem.words : StreamItem → List Int
  | .sample v _ => [v]
  | .record r =>
    match r.data with
    | .value v => [v]
    | .peak max min => [max, min]
  | .mark => []

/-- Words placed at consecutive memory offsets. -/
def wordsAt (offset : Nat) : List Int → List (Nat × Int)
  | [] => []
  | v :: vs => (offset, v) :: wordsAt (offset + 1) vs

/-! ### Halves (R73) -/

/-- The other half. -/
def HalfId.other : HalfId → HalfId
  | .a => .b
  | .b => .a

/-- The number of a half in event subjects (R90). -/
def HalfId.number : HalfId → Nat
  | .a => 0
  | .b => 1

/-- One half of a ring's STREAM state. -/
def StreamState.half (x : StreamState) (h : HalfId) : Half :=
  match h with
  | .a => x.halfA
  | .b => x.halfB

/-- Replace one half. -/
def StreamState.setHalf (x : StreamState) (h : HalfId) (y : Half) : StreamState :=
  match h with
  | .a => { x with halfA := y }
  | .b => { x with halfB := y }

/-- Half the ring length. -/
def Ring.halfLength (r : Ring) : Nat := r.length / 2

/-- The memory offset of a half's first word (R74). -/
def Ring.halfStart (r : Ring) : HalfId → Nat
  | .a => r.base
  | .b => r.base + r.halfLength

/-- A half becomes FILLING with fill 0, taking the held mark as its gapped flag (R75, R77, R78). -/
def StreamState.beginFilling (x : StreamState) (h : HalfId) : StreamState :=
  { x.setHalf h { state := .filling, fill := 0, gapped := x.heldMark, readOnce := false } with
    writer := .filling h
    heldMark := false }

/-! ### Requests of a ring (R89, R90) -/

/-- The HALF_FULL or HALF_LOST request for a half with a fill (R90). -/
def halfRequest (k : Fin 8) (kind : EventKind) (h : HalfId) (fill now : Nat) : EventRequest where
  requester := .ring k
  kind := kind
  subject := k.val * 2 + h.number
  channel := none
  value := none
  count := some fill
  time := now

/-- The RING_FROZEN request of a capture record (R90). -/
def frozenRequest (k : Fin 8) (c : CaptureRecord) : EventRequest where
  requester := .ring k
  kind := .ringFrozen
  subject := k.val
  channel := none
  value := some c.trigger.eventValue
  count := some c.valid
  time := c.freezeTime

/-- Requests made only while the notify flag is set (R89). -/
def Ring.notified (r : Ring) (rs : List EventRequest) : List EventRequest :=
  if r.notify then rs else []

/-! ### STREAM rings (R74 to R77) -/

/-- A FILLING half is closed (R75), with the requests in the order in which they leave the ring. -/
def Ring.closeHalf (r : Ring) (k : Fin 8) (h : HalfId) (now : Nat) : Ring × List EventRequest :=
  let x := r.stream.setHalf h { r.stream.half h with state := .full }
  let other := r.stream.half h.other
  let full := halfRequest k .halfFull h (r.stream.half h).fill now
  match other.state, r.overflow with
  | .empty, _ => ({ r with stream := x.beginFilling h.other }, r.notified [full])
  | .full, .overwrite =>
    ({ r with stream := x.beginFilling h.other, lost := sat32 (r.lost + other.fill) },
      r.notified [full, halfRequest k .halfLost h.other other.fill now])
  | .full, .stall => ({ r with stream := { x with writer := .stalled h.other } }, r.notified [full])
  | .reading, _ => ({ r with stream := { x with writer := .stalled h.other } }, r.notified [full])
  | .filling, _ => ({ r with stream := { x with writer := .stalled h.other } }, r.notified [full])

/-- A FILLING half with some more words (R74). -/
def Ring.fillHalf (r : Ring) (h : HalfId) (n : Nat) : Ring :=
  let y := { r.stream.half h with fill := (r.stream.half h).fill + n }
  { r with stream := r.stream.setHalf h y }

/-- A STREAM ring takes words (R74, R75, R76). -/
def Ring.streamTakes (r : Ring) (k : Fin 8) (ws : List Int) (now : Nat) :
    Ring × List (Nat × Int) × List EventRequest :=
  match r.stream.writer with
  | .off => (r, [], [])
  | .stalled _ => ({ r with dropped := sat32 (r.dropped + ws.length) }, [], [])
  | .filling h =>
    let writes := wordsAt (r.halfStart h + (r.stream.half h).fill) ws
    let y := r.fillHalf h ws.length
    if (y.stream.half h).fill < r.halfLength then (y, writes, [])
    else ((y.closeHalf k h now).1, writes, (y.closeHalf k h now).2)

/-- A STREAM ring takes a gap mark (R77). -/
def StreamState.takeMark (x : StreamState) : StreamState :=
  match x.writer with
  | .off => x
  | .filling h => x.setHalf h { x.half h with gapped := true }
  | .stalled _ => { x with heldMark := true }

/-! ### SNAPSHOT rings (R82 to R87) -/

/-- The range offsets of `n` words written from a position round a range (R82). -/
def roundPositions (length position : Nat) : Nat → List Nat
  | 0 => []
  | n + 1 => position :: roundPositions length ((position + 1) % length) n

/-- A snapshot after `n` words have been written (R82). -/
def SnapshotState.written (x : SnapshotState) (length n : Nat) : SnapshotState :=
  { x with position := (x.position + n) % length, valid := min (x.valid + n) length }

/-- The capture record made when a ring goes FROZEN (R85). -/
def SnapshotState.makeRecord (x : SnapshotState) (p : PendingTrigger) (now : Nat) : CaptureRecord where
  trigger := p.trigger
  triggerTime := p.time
  freezeTime := now
  valid := x.valid
  endPosition := x.position

/-- A SNAPSHOT ring goes FROZEN with a pending trigger (R85). -/
def Ring.goFrozen (r : Ring) (k : Fin 8) (p : PendingTrigger) (now : Nat) :
    Ring × List EventRequest :=
  let c := r.snapshot.makeRecord p now
  ({ r with snapshot :=
      { r.snapshot with state := .frozen, remaining := 0, pending := none, record := some c } },
    r.notified [frozenRequest k c])

/-- A SNAPSHOT ring takes words (R82, R84, R86). -/
def Ring.snapshotTakes (r : Ring) (k : Fin 8) (ws : List Int) (now : Nat) :
    Ring × List (Nat × Int) × List EventRequest :=
  let writes := ((roundPositions r.length r.snapshot.position ws.length).map (r.base + ·)).zip ws
  let x := r.snapshot.written r.length ws.length
  match r.snapshot.state, r.snapshot.pending with
  | .run, _ => ({ r with snapshot := x }, writes, [])
  | .countdown, some p =>
    let y := { r with snapshot := { x with remaining := x.remaining - ws.length } }
    if y.snapshot.remaining = 0 then
      ((y.goFrozen k p now).1, writes, (y.goFrozen k p now).2)
    else (y, writes, [])
  | _, _ => (r, [], [])

/-- A SNAPSHOT ring takes a gap mark (R86, R87). -/
def SnapshotState.takeMark (x : SnapshotState) : SnapshotState :=
  match x.state with
  | .run => { x with gapped := true }
  | .countdown => { x with gapped := true }
  | _ => x

/-- A SNAPSHOT ring in RUN takes a FREEZE (R83). -/
def Ring.takeFreeze (r : Ring) (k : Fin 8) (t : Trigger) (now : Nat) : Ring × List EventRequest :=
  let p : PendingTrigger := ⟨t, now⟩
  let y := { r with snapshot :=
    { r.snapshot with state := .countdown, pending := some p, remaining := r.postCount } }
  if r.postCount = 0 then y.goFrozen k p now else (y, [])

/-! ### Either mode -/

/-- A ring takes words of its source; a disabled ring misses them (R16). -/
def Ring.takeWords (r : Ring) (k : Fin 8) (ws : List Int) (now : Nat) :
    Ring × List (Nat × Int) × List EventRequest :=
  if r.enabled then
    match r.mode with
    | .stream => r.streamTakes k ws now
    | .snapshot => r.snapshotTakes k ws now
  else (r, [], [])

/-- A ring takes a gap mark. -/
def Ring.takeMark (r : Ring) : Ring :=
  if r.enabled then
    match r.mode with
    | .stream => { r with stream := r.stream.takeMark }
    | .snapshot => { r with snapshot := r.snapshot.takeMark }
  else r

/-- Words written to capture memory; none where one lies outside it. -/
def State.writeWords (s : State) (ws : List (Nat × Int)) : Option State :=
  if offsetsInMemory (ws.map (·.1)) then some { s with memory := s.memory.writeAll ws } else none

/-- A ring takes words that have reached it (R71). -/
def State.ringTakesWords (s : State) (k : Fin 8) (r : Ring) (ws : List Int) : Option State :=
  let x := r.takeWords k ws s.timebase
  (s.setRing k x.1).requestEvents x.2.2 |>.writeWords x.2.1

/-- RING_TAKE_ITEM (R71): the next item in flight to the ring is a sample or output record. -/
def execRingTakeItem (k : Fin 8) (s : State) : Host.Outcome State Fault Refusal :=
  match (s.rings.get k).inbox with
  | [] => .next s
  | .mark :: _ => .next s
  | item :: items =>
    captureOutcome (s.ringTakesWords k { s.rings.get k with inbox := items } item.words)

/-- RING_TAKE_GAP_MARK (R77, R87): the next item in flight to the ring is a gap mark. -/
def execRingTakeGapMark (k : Fin 8) (s : State) : Host.Outcome State Fault Refusal :=
  match (s.rings.get k).inbox with
  | .mark :: items => .next (s.setRing k { s.rings.get k with inbox := items }.takeMark)
  | _ => .next s

/-- A ring takes a FREEZE: taken by an enabled SNAPSHOT ring in RUN, ignored otherwise (R83). -/
def State.ringTakesFreeze (s : State) (k : Fin 8) (r : Ring) (t : Trigger) : State :=
  if r.enabled = true ∧ r.mode = .snapshot ∧ r.snapshot.state = .run then
    let x := r.takeFreeze k t s.timebase
    (s.setRing k x.1).requestEvents x.2
  else s.setRing k r

/-- RING_FREEZE (R83): the ring takes a FREEZE in flight to it from a rule. -/
def execRingFreeze (k : Fin 8) (rule : Fin 32) (s : State) : Host.Outcome State Fault Refusal :=
  match takeFirst (fun x => decide (x = rule)) (s.rings.get k).freezes with
  | some (_, rest) =>
    .next (s.ringTakesFreeze k { s.rings.get k with freezes := rest } (.rule rule))
  | none => .next s

/-! ### ENABLE, DISABLE, RESTART (R68) -/

/-- The STREAM state at ENABLE: A FILLING, B EMPTY (R68). -/
def StreamState.begun : StreamState where
  writer := .filling .a
  halfA := { Half.reset with state := .filling }
  halfB := Half.reset
  heldMark := false

/-- The SNAPSHOT state at ENABLE: RUN (R68). -/
def SnapshotState.begun : SnapshotState := { SnapshotState.reset with state := .run }

/-- The state groups of a ring at ENABLE, by its mode; the group of the other mode stays as at hard
reset (R68). -/
def Ring.begun (r : Ring) : Ring :=
  match r.mode with
  | .stream => { r with stream := StreamState.begun, snapshot := SnapshotState.reset }
  | .snapshot => { r with stream := StreamState.reset, snapshot := SnapshotState.begun }

/-- A ring enabled (R68, R69): it takes what reaches it from now on (R16). DESIGN CHOICE: that is also every
item offered in a former enabling and still in flight to it, of several earlier frames too, where no
frame was processed, or its slot gave nothing, while it was disabled (assumption 9). -/
def Ring.enabledFresh (r : Ring) : Ring :=
  { r.begun with enabled := true, dropped := 0, lost := 0 }

/-- A ring disabled: dropped and lost kept (R68, R70); what is in flight to it finds it disabled,
unless an ENABLE comes first (R16). DESIGN CHOICE: it stays in flight, of however many frames or outputs,
till the ring takes it or the next frame or output passes it by (assumption 9). -/
def Ring.disabledFresh (r : Ring) : Ring :=
  { r with
    enabled := false
    stream := StreamState.reset
    snapshot := SnapshotState.reset }

/-- A ring after a write: what its earlier source offered it does not reach it as a consumer of another
(R16, R34). -/
def Ring.rewritten (r y : Ring) : Ring :=
  if y.sourceKind = r.sourceKind ∧ y.sourceIndex = r.sourceIndex then y else { y with inbox := [] }

/-- A ring at RESTART (R68). -/
def Ring.restarted (r : Ring) : Ring :=
  if r.enabled then { r.begun with dropped := 0, lost := 0 }
  else { r with stream := StreamState.reset, snapshot := SnapshotState.reset, dropped := 0, lost := 0 }

end Sys2Proof.Machine
end

