-- ==== Sys2Proof/Machine/Readout.lean ====
section
/-! DEFINITION. The readout engine (chapter 5): acceptance, the production of frames, grants and
completion, abort and the endings by the link. -/

namespace Sys2Proof.Machine

/-! ### The part being read (R80, R86, R92) -/

/-- The half a ring part names. -/
def RingPart.half : RingPart → Option HalfId
  | .halfA => some .a
  | .halfB => some .b
  | .snapshot => none

/-- A half claimed or given back: its state changed and its read-once flag set or kept. -/
def StreamState.markHalf (x : StreamState) (h : HalfId) (state : HalfState) (read : Bool) :
    StreamState :=
  x.setHalf h { x.half h with state := state, readOnce := (x.half h).readOnce || read }

/-- A ring part becomes READING (R94 step 2). -/
def Ring.claimPart (r : Ring) (part : RingPart) : Ring :=
  match part.half with
  | some h => { r with stream := r.stream.markHalf h .reading false }
  | none => { r with snapshot := { r.snapshot with state := .reading } }

/-- A ring part is given back: a half becomes FULL, with its read-once flag set where the readout
completed, and a snapshot FROZEN (R99, R101, R103). -/
def Ring.givePart (r : Ring) (part : RingPart) (completed : Bool) : Ring :=
  match part.half with
  | some h => { r with stream := r.stream.markHalf h .full completed }
  | none => { r with snapshot := { r.snapshot with state := .frozen } }

/-- The part of a readout is given back to its ring. -/
def State.givePart (s : State) (x : ReadoutRecord) (completed : Bool) : State :=
  s.setRing x.ring ((s.rings.get x.ring).givePart x.part completed)

/-- Replace the engine's state. -/
def State.setEngine (s : State) (e : EngineState) : State :=
  { s with readout := { s.readout with engine := e } }

/-- Replace DT. -/
def State.setDt (s : State) (q : List DtFrame) : State :=
  { s with egress := { s.egress with dt := q } }

/-! ### Producing frames (R95 to R98) -/

/-- Whether DT has a free place for the readout engine: none while the C-port is not UP (R95, R160). -/
def Egress.dtFree (e : Egress) : Bool := !e.held && decide (e.dt.length < Config.dtCapacity)

/-- Whether a readout has a frame to place: words left, or no frame yet at T = 0; none once LAST is
placed (R95). -/
def ReadoutRecord.wantsFrame (x : ReadoutRecord) : Bool :=
  !x.lastQueued && decide (x.framesQueued < Config.readoutPlaces)

/-- How many words the next frame takes (R95 step 1). -/
def ReadoutRecord.frameWords (x : ReadoutRecord) : Nat :=
  min Config.readoutFrameWords (x.total - x.nextOffset)

/-- The memory offset of a readout's word `k` (R96, R97). -/
def Ring.readoutOffset (r : Ring) (x : ReadoutRecord) (k : Nat) : Nat :=
  match x.part with
  | .snapshot => r.base + (x.start + k) % r.length
  | _ => x.start + k

/-- The memory offsets of the next frame's words (R95 step 2). -/
def Ring.frameOffsets (r : Ring) (x : ReadoutRecord) : List Nat :=
  (List.range x.frameWords).map fun j => r.readoutOffset x (x.nextOffset + j)

/-- The next frame of a readout (R95, R98). -/
def State.nextFrame (s : State) (x : ReadoutRecord) : ReadoutFrame where
  id := x.id
  ring := x.ring
  part := x.part
  offset := x.nextOffset
  words := ((s.rings.get x.ring).frameOffsets x).map s.memory.read
  gapped := x.gapped
  last := decide (x.total ≤ x.nextOffset + x.frameWords)
  aborted := false

/-- The record after its next frame has been placed (R95 step 4). -/
def ReadoutRecord.placed (x : ReadoutRecord) : ReadoutRecord :=
  { x with
    nextOffset := x.nextOffset + x.frameWords
    framesQueued := x.framesQueued + 1
    lastQueued := decide (x.total ≤ x.nextOffset + x.frameWords) }

/-- The engine places one frame where R95 allows one; none where a word lies outside capture memory. -/
def State.produceOne (s : State) : Option State :=
  match s.readout.engine with
  | .sending x =>
    if s.egress.dtFree && x.wantsFrame then
      if offsetsInMemory ((s.rings.get x.ring).frameOffsets x) then
        some ((s.setDt (s.egress.dt ++ [.readout (s.nextFrame x)])).setEngine (.sending x.placed))
      else none
    else some s
  | _ => some s

/-- The engine places frames one at a time, at most `n` of them. -/
def State.produceUpTo (s : State) : Nat → Option State
  | 0 => some s
  | n + 1 => s.produceOne.bind fun s => s.produceUpTo n

/-! ### Terminating frames (R102) -/

/-- The terminating frame of an aborted readout (R102). -/
def TerminatingRecord.frame (x : TerminatingRecord) : ReadoutFrame where
  id := x.id
  ring := x.ring
  part := x.part
  offset := x.wordsSent
  words := []
  gapped := x.gapped
  last := true
  aborted := true

/-- A pending terminating frame is placed where DT has a free place (R102). -/
def State.placeTerminator (s : State) : State :=
  match s.readout.engine with
  | .terminating x =>
    if x.pending && s.egress.dtFree then
      (s.setDt (s.egress.dt ++ [.readout x.frame])).setEngine
        (.terminating { x with pending := false })
    else s
  | _ => s

/-- The engine examines its conditions: at acceptance, when a frame leaves DT and when the C-port comes
UP (R95, R102, R174). A readout has at most 8 frames in DT. -/
def State.examineEngine (s : State) : Option State :=
  s.placeTerminator.produceUpTo Config.readoutPlaces

/-- READOUT_FRAME_PRODUCE (R95): one production. Where an acceptance, a grant or the C-port's coming UP
leads to productions, they come in that event (section 8.8; assumption 11). -/
def execReadoutFrameProduce (s : State) : Host.Outcome State Fault Refusal :=
  captureOutcome s.produceOne

/-- TERMINATING_FRAME_PLACE (R102). -/
def execTerminatingFramePlace (s : State) : Host.Outcome State Fault Refusal :=
  .next s.placeTerminator

/-! ### Grants (R99, R102) -/

/-- One more readout completed. -/
def State.countCompleted (s : State) : State :=
  { s with readout := { s.readout with completed := bump32 s.readout.completed } }

/-- One more readout aborted. -/
def State.countAborted (s : State) : State :=
  { s with readout := { s.readout with aborted := bump32 s.readout.aborted } }

/-- The record after one of its frames has been granted (R99). -/
def ReadoutRecord.granted (x : ReadoutRecord) (f : ReadoutFrame) : ReadoutRecord :=
  { x with framesQueued := x.framesQueued - 1, wordsSent := x.wordsSent + f.words.length }

/-- The engine takes the grant of a READOUT frame: a LAST frame completes the readout, a terminating
frame frees the engine (R99, R102). -/
def State.engineGranted (s : State) (f : ReadoutFrame) : State :=
  match s.readout.engine with
  | .sending x =>
    if f.last then ((s.givePart x true).setEngine .free).countCompleted
    else s.setEngine (.sending (x.granted f))
  | .terminating _ => if f.aborted then s.setEngine .free else s
  | .free => s

/-! ### Endings (R101, R103, R104) -/

/-- Whether a frame of DT is a READOUT frame of a readout. -/
def DtFrame.ofReadout (id : Nat) : DtFrame → Bool
  | .reduced _ => false
  | .readout f => decide (f.id = id)

/-- The readout in progress is aborted (R101); removing the last frames of DT clears the FW streak
(R159), and the terminating frame is placed or made pending (R102). -/
def State.abortReadout (s : State) (x : ReadoutRecord) : State :=
  let q := s.egress.dt.filter fun f => !f.ofReadout x.id
  let s₁ := s.setDt q
  let s₂ := { s₁ with egress := { s₁.egress with streak := if q = [] then 0 else s₁.egress.streak } }
  (((s₂.givePart x false).setEngine
    (.terminating ⟨x.id, x.ring, x.part, x.gapped, x.wordsSent, true⟩)).countAborted).placeTerminator

/-- The readout ends because the C-port left UP (R103). -/
def State.readoutLinkLost (s : State) : State :=
  match s.readout.engine with
  | .sending x => ((s.givePart x false).setEngine .free).countAborted
  | .terminating _ => s.setEngine .free
  | .free => s

/-! ### Acceptance (R94) -/

/-- The total words of a part: a half's fill, or the capture record's valid length (R94). -/
def Ring.partWords (r : Ring) : RingPart → Nat
  | .halfA => r.stream.halfA.fill
  | .halfB => r.stream.halfB.fill
  | .snapshot =>
    match r.snapshot.record with
    | some c => c.valid
    | none => 0

/-- The start of a part (R94). -/
def Ring.partStart (r : Ring) : RingPart → Nat
  | .halfA => r.halfStart .a
  | .halfB => r.halfStart .b
  | .snapshot =>
    match r.snapshot.record with
    | some c => (c.endPosition + (r.length - c.valid)) % r.length
    | none => 0

/-- The gapped flag of a part (R94). -/
def Ring.partGapped (r : Ring) : RingPart → Bool
  | .halfA => r.stream.halfA.gapped
  | .halfB => r.stream.halfB.gapped
  | .snapshot => r.snapshot.gapped

/-- The record of an accepted readout (R94 step 3). -/
def Ring.acceptRecord (r : Ring) (k : Fin 8) (part : RingPart) (id : Nat) : ReadoutRecord where
  id := id
  ring := k
  part := part
  total := r.partWords part
  start := r.partStart part
  gapped := r.partGapped part
  nextOffset := 0
  wordsSent := 0
  framesQueued := 0
  lastQueued := false

/-- A READ_RING request is accepted: the part is claimed and the engine enters SENDING (R94 steps 1 to
3). -/
def State.acceptReadout (s : State) (k : Fin 8) (part : RingPart) : State :=
  let r := s.rings.get k
  let s₁ := s.setRing k (r.claimPart part)
  { s₁ with readout :=
      { s₁.readout with
        engine := .sending (r.acceptRecord k part s₁.readout.nextId)
        nextId := (s₁.readout.nextId + 1) % 256 } }

/-- The engine at RESTART (R91, R104). -/
def Readout.restarted (x : Readout) : Readout := { x with engine := .free, completed := 0, aborted := 0 }

end Sys2Proof.Machine
end

