-- ==== Sys2Proof/Machine/Egress.lean ====
section
/-! DEFINITION. The egress scheduler (chapter 8): FW, the reduced-frame assembler, DT, MR, the C-port
arbiter, OB, and the changes of the two links. -/

namespace Sys2Proof.Machine

/-! ### FW (R150 to R152, R160) -/

/-- A frame offered to FW: placed, refused by a full FW, or discarded while the C-port is not UP. -/
def State.offerFw (s : State) (bytes : List Byte) : State :=
  if s.egress.held then
    { s with egress := { s.egress with downDiscards := bump32 s.egress.downDiscards } }
  else if s.egress.fw.length < Config.fwCapacity then
    { s with egress := { s.egress with fw := s.egress.fw ++ [bytes] } }.tellOccupancy .f
      (.joined (s.egress.fw.length + 1))
  else { s with egress := { s.egress with fwDrops := bump32 s.egress.fwDrops } }

/-- FW_PLACE (R151, R152, R160): a frame reaches the scheduler by one of the two ways and is offered to
FW. A frame of another kind stands behind every candidate that the classifier has handed on before, so it
waits while one has still to be placed (R150). -/
def execFwPlace (way : FwWay) (s : State) : Host.Outcome State Fault Refusal :=
  match way with
  | .candidate =>
    match s.egress.candidates with
    | c :: cs => .next ({ s with egress := { s.egress with candidates := cs } }.offerFw c.rebuild)
    | [] => .next s
  | .other =>
    match s.egress.others with
    | f :: fs =>
      if s.egress.candidates = [] then
        .next ({ s with egress := { s.egress with others := fs } }.offerFw f)
      else .next s
    | [] => .next s

/-! ### The reduced-frame assembler (R153 to R155) -/

/-- The REDUCED frames in DT. -/
def reducedInDt (q : List DtFrame) : Nat :=
  q.countP fun f => match f with
    | .reduced _ => true
    | .readout _ => false

/-- The READOUT frames in DT (R140, R156). -/
def readoutsInDt (q : List DtFrame) : Nat :=
  q.countP fun f => match f with
    | .reduced _ => false
    | .readout _ => true

/-- Whether a readout still has frames to place, so that part of DT is kept free for it (R155). -/
def EngineState.keepsPlaces : EngineState → Bool
  | .sending x => !x.lastQueued
  | _ => false

/-- Whether a REDUCED frame enters DT (R155). -/
def State.reducedEnters (s : State) : Bool :=
  decide (s.egress.dt.length < Config.dtCapacity)
    && (!s.readout.engine.keepsPlaces || decide (reducedInDt s.egress.dt < Config.reducedPlaces))

/-- The open frame, now of these records, closes: it enters DT or is dropped with its records counted,
and the hold timer stops (R153, R154, R155). -/
def State.closeReduced (s : State) (records : List OutputRecord) : State :=
  if s.reducedEnters then
    { s with egress := { s.egress with
        dt := s.egress.dt ++ [.reduced records]
        openFrame := []
        holdTimer := .stopped } }
  else
    { s with egress := { s.egress with
        reducedDropped := sat32 (s.egress.reducedDropped + records.length)
        openFrame := []
        holdTimer := .stopped } }

/-- The assembler takes an output record (R153, R160). -/
def State.assemble (s : State) (r : OutputRecord) : State :=
  if s.egress.held then
    { s with egress := { s.egress with reducedDropped := bump32 s.egress.reducedDropped } }
  else if Config.reducedFrameRecords ≤ s.egress.openFrame.length + 1 then
    s.closeReduced (s.egress.openFrame ++ [r])
  else if s.egress.openFrame = [] then
    { s with egress := { s.egress with
        openFrame := [r]
        holdTimer := startTimer s.management.global.reducedHold } }
  else { s with egress := { s.egress with openFrame := s.egress.openFrame ++ [r] } }

/-- ASSEMBLER_TAKE_RECORD (R153): the assembler takes the oldest record in flight to it from a slot. -/
def execAssemblerTakeRecord (k : Fin 16) (s : State) : Host.Outcome State Fault Refusal :=
  match takeFirst (fun r => decide (r.slot = k)) s.egress.records with
  | some (r, rest) => .next ({ s with egress := { s.egress with records := rest } }.assemble r)
  | none => .next s

/-- REDUCED_HOLD_EXPIRY (R153): the expiry of a running hold timer that has reached its time
(assumption 4). -/
def execReducedHoldExpiry (s : State) : Host.Outcome State Fault Refusal :=
  if s.egress.holdTimer.due = true ∧ s.egress.openFrame ≠ [] then
    .next (s.closeReduced s.egress.openFrame)
  else .next s

/-! ### MR (R130, R157, R160) -/

/-- A reply is placed in the place of a tag, at the tail of MR's order, instead of the reply that waits
there; while the C-port is not UP it is discarded. -/
def State.placeReply (s : State) (place : Fin 4) (r : Reply) : State :=
  if s.egress.held then s
  else
    { s with egress := { s.egress with
        mr := s.egress.mr.filter (fun x => decide (x.place ≠ place)) ++ [⟨place, r⟩] } }

/-! ### The arbiter (R158, R159) -/

/-- Whether the arbiter can grant: the C-port is UP, as the scheduler knows too, its transmitter is free
and not paused (R158, R174; assumption 12). -/
def State.arbiterFree (s : State) : Bool :=
  decide (s.cPort.link = .up) && decide (s.cPort.sending = none) && !s.cPort.paused
    && !s.egress.held && decide (s.egress.cChanges = [])

/-- The claimant that is granted, if any has something to send (R158). -/
def State.arbiterChoice (s : State) : Option Claimant :=
  if s.egress.mr ≠ [] then some .mr
  else if s.events.ready s.management.global.eventWindow then some .ev
  else if s.management.global.dtStreak ≤ s.egress.streak ∧ s.egress.dt ≠ [] then some .dt
  else if s.egress.fw ≠ [] then some .fw
  else if s.egress.dt ≠ [] then some .dt
  else none

/-- The C-port transmitter begins to send a frame. -/
def State.sendC (s : State) (bytes : List Byte) : State :=
  { s with cPort := s.cPort.beginFrame bytes }

/-- The grant of MR: the oldest reply leaves (R157). -/
def State.grantMr (s : State) : State :=
  match s.egress.mr with
  | x :: xs => { s with egress := { s.egress with mr := xs } }.sendC (x.reply.bytes s.ownNode)
  | [] => s

/-- The grant of EV: the event unit forms one EVENT frame (R116). -/
def State.grantEv (s : State) : State :=
  let rs := s.events.frameRecords s.management.global.eventWindow
  { s with events := s.events.afterGrant s.management.global }.sendC (eventFrame s.ownNode rs)

/-- The grant of FW: its oldest frame leaves, the F-port is told, and the streak counts it while DT
holds a frame (R152, R159, R170). -/
def State.grantFw (s : State) : State :=
  match s.egress.fw with
  | f :: fs =>
    ({ s with egress := { s.egress with
        fw := fs
        streak := if s.egress.dt = [] then 0 else s.egress.streak + 1 } }.tellOccupancy .f
      (.removed fs.length)).sendC f
  | [] => s

/-- The grant of DT: its oldest frame leaves, the streak returns to 0, the engine takes the grant of a
READOUT frame and examines its conditions (R95, R99, R102, R156, R159). -/
def State.grantDt (s : State) : Option State :=
  match s.egress.dt with
  | f :: fs =>
    let s₁ := { s with egress := { s.egress with dt := fs, streak := 0 } }.sendC (f.bytes s.ownNode)
    match f with
    | .readout x => (s₁.engineGranted x).examineEngine
    | .reduced _ => s₁.examineEngine
  | [] => some s

/-- One grant (R158). -/
def State.grant (s : State) : Claimant → Option State
  | .mr => some s.grantMr
  | .ev => some s.grantEv
  | .fw => some s.grantFw
  | .dt => s.grantDt

/-- ARBITER_GRANT (R158): the arbiter decides, and grants one frame where it can. -/
def execArbiterGrant (s : State) : Host.Outcome State Fault Refusal :=
  if s.arbiterFree then
    match s.arbiterChoice with
    | some c => captureOutcome (s.grant c)
    | none => .next s
  else .next s

/-! ### OB (R163) -/

/-- OB_SEND (R163): with the F-port UP, its transmitter free and not paused, the oldest frame of OB is
sent. A loss of the F-port that the scheduler has not taken yet comes first (assumption 12). -/
def execObSend (s : State) : Host.Outcome State Fault Refusal :=
  if s.fPort.link = .up ∧ s.fPort.sending = none ∧ s.fPort.paused = false ∧ s.egress.fLosses = 0 then
    match s.egress.ob with
    | f :: fs =>
      let s₁ := { s with egress := { s.egress with ob := fs } }.tellOccupancy .c (.removed fs.length)
      .next { s₁ with fPort := s₁.fPort.beginFrame f }
    | [] => .next s
  else .next s

/-! ### Changes of the links (R160, R163, R173, R174) -/

/-- FW, DT and MR are emptied and held empty, the open frame is discarded, the hold timer stops and the
streak is 0 (R160); the emptying of FW is told to the F-port (R170). -/
def State.emptyEgress (s : State) : State :=
  { s with egress := { s.egress with
      fw := []
      dt := []
      mr := []
      openFrame := []
      holdTimer := .stopped
      streak := 0
      held := true } }.tellOccupancy .f (.removed 0)

/-- C_PORT_LEAVING_UP_EGRESS (R103, R160, R174): in one event the readout engine ends its readout and
the scheduler empties its queues. -/
def execCPortLeavingUpEgress (s : State) : Host.Outcome State Fault Refusal :=
  match s.egress.cChanges with
  | .leftUp :: xs =>
    .next ({ s with egress := { s.egress with cChanges := xs } }.readoutLinkLost.emptyEgress)
  | _ => .next s

/-- C_PORT_COMING_UP_EGRESS (R102, R160, R174): the scheduler releases FW, DT and MR, and the readout
engine examines its conditions. The scheduler takes the change behind the event unit, once that has a
record to send, so that event frames come first (R174; assumption 26). -/
def execCPortComingUpEgress (s : State) : Host.Outcome State Fault Refusal :=
  match s.egress.cChanges with
  | .cameUp :: xs =>
    if s.events.leads then
      captureOutcome
        { s with egress := { s.egress with cChanges := xs, held := false } }.examineEngine
    else .next s
  | _ => .next s

/-- OB is emptied, and the C-port is told (R163, R170). -/
def State.emptyOb (s : State) : State :=
  { s with egress := { s.egress with ob := [] } }.tellOccupancy .c (.removed 0)

/-- F_PORT_LEAVING_UP_EGRESS (R163, R173). -/
def execFPortLeavingUpEgress (s : State) : Host.Outcome State Fault Refusal :=
  if s.egress.fLosses = 0 then .next s
  else .next { s with egress := { s.egress with fLosses := s.egress.fLosses - 1 } }.emptyOb

/-! ### RESTART (R148) -/

/-- The scheduler at RESTART: FW, DT, MR and OB emptied, the open frame discarded, the timer stopped,
the streak and the counts 0, and both ports told of the emptyings (R148, R149, R170). What is in
flight to it stays in flight (R146). -/
def State.restartEgress (s : State) : State :=
  ({ s with egress := { s.egress with
      fw := []
      dt := []
      mr := []
      ob := []
      openFrame := []
      holdTimer := .stopped
      streak := 0
      fwDrops := 0
      downDiscards := 0
      reducedDropped := 0
      obDrops := 0 } }.tellOccupancy .f (.removed 0)).tellOccupancy .c (.removed 0)

end Sys2Proof.Machine
end

