-- ==== Sys2Proof/Machine/Rules.lean ====
section
/-! DEFINITION. The watch unit (chapter 3): the values a rule takes, its criteria, the watch machine,
and what a rule does when it asserts or releases. -/

namespace Sys2Proof.Machine

/-! ### Criteria (R45, R49, R50) -/

/-- The consistency conditions of a rule (R45). -/
def Rule.consistent (r : Rule) : Bool :=
  match r.criterion with
  | .above => true
  | .below => true
  | .inside => decide (r.low ≤ r.high)
  | .outside => decide (r.low ≤ r.high) && decide (r.low + r.hyst ≤ r.high - r.hyst)
  | .step => decide (0 ≤ r.high)

/-- The size of the change from the previous value, in either direction (R49). -/
def changeSize (v previous : Int) : Int := ((v - previous).natAbs : Int)

/-- The assert condition on a value, with the previous value a STEP rule measures from (R49). -/
def Rule.assertCondition (r : Rule) (v previous : Int) : Bool :=
  match r.criterion with
  | .above => decide (r.high < v)
  | .below => decide (v < r.low)
  | .inside => decide (r.low ≤ v) && decide (v ≤ r.high)
  | .outside => decide (v < r.low) || decide (r.high < v)
  | .step => decide (r.high < changeSize v previous)

/-- The release condition on a value (R49). -/
def Rule.releaseCondition (r : Rule) (v previous : Int) : Bool :=
  match r.criterion with
  | .above => decide (v ≤ r.high - r.hyst)
  | .below => decide (r.low + r.hyst ≤ v)
  | .inside => decide (v < r.low - r.hyst) || decide (r.high + r.hyst < v)
  | .outside => decide (r.low + r.hyst ≤ v) && decide (v ≤ r.high - r.hyst)
  | .step => decide (changeSize v previous ≤ r.high - r.hyst)

/-- Whether a value qualifies: the assert condition in CLEAR and PENDING, the release condition in
ACTIVE and LEAVING (R49). -/
def Rule.qualifies (r : Rule) (v previous : Int) : Bool :=
  match r.state with
  | .off => false
  | .clear => r.assertCondition v previous
  | .pending => r.assertCondition v previous
  | .active => r.releaseCondition v previous
  | .leaving => r.releaseCondition v previous

/-- Whether a value is evaluated: always, but for a STEP rule with no previous value (R48). -/
def Rule.evaluates (r : Rule) : Bool :=
  decide (r.criterion ≠ .step) || r.previous.isSome

/-! ### The watch machine (R51) -/

/-- The state, run count and action that a value leads to (R51). -/
def Rule.stepState (r : Rule) (qualifies : Bool) : RuleState × Nat × RuleAction :=
  let n := r.runCount + 1
  match r.state, qualifies with
  | .off, _ => (.off, r.runCount, .none)
  | .clear, true => if n < r.persistence then (.pending, n, .none) else (.active, 0, .assert)
  | .clear, false => (.clear, 0, .none)
  | .pending, true => if n < r.persistence then (.pending, n, .none) else (.active, 0, .assert)
  | .pending, false => (.clear, 0, .none)
  | .active, true => if n < r.persistence then (.leaving, n, .none) else (.clear, 0, .release)
  | .active, false => (.active, 0, .none)
  | .leaving, true => if n < r.persistence then (.leaving, n, .none) else (.clear, 0, .release)
  | .leaving, false => (.active, 0, .none)

/-- A rule takes a value: one step of its watch machine where the value is evaluated, and the value
becomes the previous value (R47, R48, R51). -/
def Rule.stepValue (r : Rule) (v : Int) : Rule × RuleAction :=
  if r.evaluates then
    let x := r.stepState (r.qualifies v (r.previous.getD 0))
    ({ r with state := x.1, runCount := x.2.1, previous := some v }, x.2.2)
  else ({ r with previous := some v }, .none)

/-- The value a rule takes from an item, and the index its records carry with it (R47). -/
def Rule.valueOf (r : Rule) : StreamItem → Option (Int × Nat)
  | .sample v i => some (v, i)
  | .record x =>
    match x.data, r.peakPart with
    | .value v, _ => some (v, x.outputIndex)
    | .peak max _, .max => some (max, x.outputIndex)
    | .peak _ min, .min => some (min, x.outputIndex)
  | .mark => none

/-! ### Assert and release (R54 to R58) -/

/-- The channel a rule's records name: its source, or its source slot's channel field (R55). -/
def State.ruleChannel (s : State) (r : Rule) : Fin 64 :=
  match r.source with
  | some (.slot k) => (s.slots.get k).channel
  | _ => r.sourceIndex

/-- The RULE_ASSERT or RULE_RELEASE request of a rule (R55). -/
def State.ruleRequest (s : State) (k : Fin 32) (r : Rule) (kind : EventKind) (v : Int) (i : Nat) :
    EventRequest where
  requester := .rule k
  kind := kind
  subject := k.val
  channel := some (s.ruleChannel r)
  value := some v
  count := some i
  time := s.timebase

/-- A rule sends FREEZE to its freeze ring, where it names one (R56). -/
def State.sendFreeze (s : State) (k : Fin 32) (target : Option (Fin 8)) : State :=
  match target with
  | some g => s.setRing g { s.rings.get g with freezes := (s.rings.get g).freezes ++ [k] }
  | none => s

/-- A rule sends START to its start slot, where it names one (R57). -/
def State.sendStart (s : State) (target : Option (Fin 16)) : State :=
  match target with
  | some j => s.setSlot j { s.slots.get j with starts := (s.slots.get j).starts + 1 }
  | none => s

/-- The actions of an assert (R54). -/
def State.ruleAsserts (s : State) (k : Fin 32) (r : Rule) (v : Int) (i : Nat) : State :=
  let s₁ := s.setRule k
    { r with asserts := bump32 r.asserts, lastAssert := some s.timebase }
  let s₂ := if r.eventOnAssert then s₁.requestEvent (s.ruleRequest k r .ruleAssert v i) else s₁
  (s₂.sendFreeze k r.freezeRing).sendStart r.startSlot

/-- The actions of a release (R58). -/
def State.ruleReleases (s : State) (k : Fin 32) (r : Rule) (v : Int) (i : Nat) : State :=
  let s₁ := s.setRule k r
  if r.eventOnRelease then s₁.requestEvent (s.ruleRequest k r .ruleRelease v i) else s₁

/-- A rule takes a value that has reached it (R47): a disabled rule misses it (R16). -/
def State.ruleTakesValue (s : State) (k : Fin 32) (r : Rule) (v : Int) (i : Nat) : State :=
  if r.enabled then
    match r.stepValue v with
    | (y, .none) => s.setRule k y
    | (y, .assert) => s.ruleAsserts k y v i
    | (y, .release) => s.ruleReleases k y v i
  else s.setRule k r

/-- RULE_TAKE_VALUE (R47, R51): the next item in flight to the rule is a sample or output record. -/
def execRuleTakeValue (k : Fin 32) (s : State) : Host.Outcome State Fault Refusal :=
  match (s.rules.get k).inbox with
  | [] => .next s
  | item :: items =>
    match (s.rules.get k).valueOf item with
    | some (v, i) => .next (s.ruleTakesValue k { s.rules.get k with inbox := items } v i)
    | none => .next s

/-! ### Gap marks (R53) -/

/-- The state a rule falls back to at a gap mark (R53). -/
def RuleState.afterMark : RuleState → RuleState
  | .off => .off
  | .clear => .clear
  | .pending => .clear
  | .active => .active
  | .leaving => .active

/-- The rule after a gap mark (R53). -/
def Rule.afterMark (r : Rule) : Rule :=
  { r with state := r.state.afterMark, runCount := 0, previous := none }

/-- RULE_TAKE_GAP_MARK (R53): the next item in flight to the rule is a gap mark. -/
def execRuleTakeGapMark (k : Fin 32) (s : State) : Host.Outcome State Fault Refusal :=
  match (s.rules.get k).inbox with
  | .mark :: items =>
    .next (s.setRule k
      (if (s.rules.get k).enabled then { s.rules.get k with inbox := items }.afterMark
        else { s.rules.get k with inbox := items }))
  | _ => .next s

/-! ### ENABLE, DISABLE, RESTART (R43) -/

/-- The read-only fields of a rule at ENABLE, and of an enabled rule at RESTART (R43). -/
def Rule.begun (r : Rule) : Rule :=
  { r with state := .clear, runCount := 0, previous := none, asserts := 0, lastAssert := none }

/-- A rule enabled (R43, R44): it takes what reaches it from now on (R16). DESIGN CHOICE: that is also every
item offered in a former enabling and still in flight to it, of several earlier frames too, where no
frame was processed, or its slot gave nothing, while it was disabled (assumption 9). -/
def Rule.enabledFresh (r : Rule) : Rule := { r.begun with enabled := true }

/-- A rule disabled: asserts and last assert time kept (R43, R46); what is in flight to it finds it
disabled, unless an ENABLE comes first (R16). DESIGN CHOICE: it stays in flight, of however many frames or
outputs, till the rule takes it or the next frame or output passes it by (assumption 9). -/
def Rule.disabledFresh (r : Rule) : Rule :=
  { r with enabled := false, state := .off, runCount := 0, previous := none }

/-- A rule after a write: what its earlier source offered it does not reach it as a consumer of another
(R16, R34). -/
def Rule.rewritten (r y : Rule) : Rule :=
  if y.sourceKind = r.sourceKind ∧ y.sourceIndex = r.sourceIndex then y else { y with inbox := [] }

/-- A rule at RESTART (R43). -/
def Rule.restarted (r : Rule) : Rule :=
  if r.enabled then r.begun
  else { r with state := .off, runCount := 0, previous := none, asserts := 0, lastAssert := none }

end Sys2Proof.Machine
end

