-- ==== Sys2Proof/Machine/Slots.lean ====
section
/-! DEFINITION. The reduction unit (chapter 2): windows, outputs, gap marks and STARTs. -/

namespace Sys2Proof.Machine

/-! ### Windows and outputs (R27 to R33) -/

/-- The window length N = 2^e (section 2.1). -/
def Slot.windowLength (x : Slot) : Nat := 2 ^ x.exponent

/-- A window begun by its first sample (R28). -/
def Window.first (v : Int) (i : Nat) : Window := ⟨v, v, v, i⟩

/-- A window with one more sample (R28). -/
def Window.add (w : Window) (v : Int) : Window :=
  ⟨w.sum + v, if w.max < v then v else w.max, if v < w.min then v else w.min, w.firstIndex⟩

/-- The partial window with one more sample: a new one at count 0 (R28). -/
def Slot.extended (x : Slot) (v : Int) (i : Nat) : Window :=
  match x.window with
  | none => Window.first v i
  | some w => w.add v

/-- What a completed window gives, by mode (R30, R31, R32). -/
def Window.output (w : Window) (mode : SlotMode) (e : Nat) : OutputData :=
  match mode with
  | .mean => .value (floorShift w.sum e)
  | .enhance => .value (floorShift w.sum (e / 2))
  | .peak => .peak w.max w.min

/-- The output record of a completed window (R29, R33). -/
def Slot.outputRecord (x : Slot) (k : Fin 16) (w : Window) (now : Nat) : OutputRecord where
  slot := k
  mode := x.mode
  outputIndex := x.outputIndex
  firstIndex := w.firstIndex
  data := w.output x.mode x.exponent
  time := now
  afterGap := x.afterGap

/-- The state a slot takes when its window is completed or broken: ACCUM if CONTINUOUS, IDLE if GATED
(R29, R38). -/
def SlotTrigger.restState : SlotTrigger → SlotState
  | .continuous => .accum
  | .gated => .idle

/-- The slot after its window has been completed (R29). -/
def Slot.afterOutput (x : Slot) : Slot :=
  { x with
    state := x.trigger.restState
    count := 0
    window := none
    outputIndex := wrap32 (x.outputIndex + 1)
    afterGap := false }

/-- A slot takes a sample, with the record it outputs if the sample completes its window (R28, R29,
R35). -/
def Slot.takeSample (x : Slot) (k : Fin 16) (v : Int) (i now : Nat) : Slot × Option OutputRecord :=
  match x.state with
  | .accum =>
    let w := x.extended v i
    if x.count + 1 < x.windowLength then ({ x with count := x.count + 1, window := some w }, none)
    else (x.afterOutput, some (x.outputRecord k w now))
  | .idle => (x, none)
  | .off => (x, none)

/-- A slot offers the one item of its event; what its earlier events offered has passed by the consumers
that are not enabled (R34, R44, R69). -/
def State.offerNext (s : State) (k : Fin 16) (item : StreamItem) : State :=
  (s.passBy fun src => decide (src = .slot k)).offer (.slot k) item

/-- A slot delivers an output record: to its consumers, and to the assembler when its to-egress flag is
set (R34). -/
def State.deliverOutput (s : State) (k : Fin 16) (r : OutputRecord) (toEgress : Bool) : State :=
  let s₁ := s.offerNext k (.record r)
  if toEgress then
    { s₁ with egress := { s₁.egress with records := s₁.egress.records ++ [r] } }
  else s₁

/-- A slot takes a sample that has reached it (R28, R29). -/
def State.slotTakesSample (s : State) (k : Fin 16) (x : Slot) (v : Int) (i : Nat) : State :=
  match x.takeSample k v i s.timebase with
  | (y, none) => s.setSlot k y
  | (y, some r) => (s.setSlot k y).deliverOutput k r x.toEgress

/-- SLOT_TAKE_SAMPLE (R28, R35): the next item in flight to the slot is a sample. -/
def execSlotTakeSample (k : Fin 16) (s : State) : Host.Outcome State Fault Refusal :=
  match (s.slots.get k).inbox with
  | .sample v i :: items =>
    .next (s.slotTakesSample k { s.slots.get k with inbox := items } v i)
  | _ => .next s

/-! ### Gap marks (R38, R39, R40) -/

/-- The SLOT_BROKEN request of a broken window (R40). -/
def Slot.brokenRequest (x : Slot) (k : Fin 16) (now : Nat) : EventRequest where
  requester := .slot k
  kind := .slotBroken
  subject := k.val
  channel := some x.channel
  value := none
  count := some x.count
  time := now

/-- Whether a gap mark breaks a window: ACCUM with a count of 1 or more (R38). -/
def Slot.breaks (x : Slot) : Bool := decide (x.state = .accum) && decide (x.count ≠ 0)

/-- The slot after a gap mark (R38, R39). -/
def Slot.afterMark (x : Slot) : Slot :=
  if x.breaks then
    { x with
      state := x.trigger.restState
      count := 0
      window := none
      brokenWindows := bump32 x.brokenWindows
      afterGap := true }
  else { x with afterGap := true }

/-- A slot takes a gap mark that has reached it and passes one on (R38, R39); a disabled slot
misses it (R16). -/
def State.slotTakesMark (s : State) (k : Fin 16) (x : Slot) : State :=
  if x.state = .off then s.setSlot k x
  else
    let s₁ := s.setSlot k x.afterMark
    let s₂ := if x.breaks && x.notifyBroken then s₁.requestEvent (x.brokenRequest k s.timebase)
      else s₁
    s₂.offerNext k .mark

/-- SLOT_TAKE_GAP_MARK (R38, R39): the next item in flight to the slot is a gap mark. -/
def execSlotTakeGapMark (k : Fin 16) (s : State) : Host.Outcome State Fault Refusal :=
  match (s.slots.get k).inbox with
  | .mark :: items => .next (s.slotTakesMark k { s.slots.get k with inbox := items })
  | _ => .next s

/-! ### START (R36) -/

/-- Whether a START is taken: the slot is enabled, GATED and IDLE (R36). -/
def Slot.takesStart (x : Slot) : Bool :=
  x.enabled && decide (x.trigger = .gated) && decide (x.state = .idle)

/-- The slot after a START: one that is taken sets the state and clears the count, and any other is
ignored (R36). -/
def Slot.afterStart (x : Slot) : Slot :=
  if x.takesStart then { x with state := .accum, count := 0, window := none } else x

/-- SLOT_START (R36): the slot takes a START in flight to it from a rule. -/
def execSlotStart (k : Fin 16) (s : State) : Host.Outcome State Fault Refusal :=
  let x := s.slots.get k
  if x.starts = 0 then .next s
  else .next (s.setSlot k { x with starts := x.starts - 1 }.afterStart)

/-! ### ENABLE, DISABLE, RESTART (R24) -/

/-- The runtime values of an enabled slot at ENABLE and RESTART, by its trigger (R24). -/
def Slot.begun (x : Slot) : Slot :=
  { x with
    state := x.trigger.restState
    count := 0
    outputIndex := 0
    brokenWindows := 0
    window := none
    afterGap := false }

/-- A slot enabled (R24, R25): it takes what reaches it from now on, of a frame that the ENABLE meets too
(R16). DESIGN CHOICE: that is also every item offered in a former enabling and still in flight to it, of
several earlier frames too, where no frame was processed while it was disabled (assumption 9). -/
def Slot.enabledFresh (x : Slot) : Slot := { x.begun with enabled := true }

/-- A slot disabled: output index and broken windows kept (R24, R26); what is in flight to it finds
it disabled, unless an ENABLE comes first (R16). DESIGN CHOICE: it stays in flight, of however many frames,
till the slot takes it or the next frame passes it by (assumption 9). -/
def Slot.disabledFresh (x : Slot) : Slot :=
  { x with
    enabled := false
    state := .off
    count := 0
    window := none
    afterGap := false }

/-- A slot after a write: what its earlier channel offered it does not reach it as a consumer of another
(R16). -/
def Slot.rewritten (x y : Slot) : Slot :=
  if y.channel = x.channel then y else { y with inbox := [] }

/-- A slot at RESTART (R24); what is in flight to it stays in flight (R146). -/
def Slot.restarted (x : Slot) : Slot :=
  if x.enabled then x.begun
  else
    { x with
      state := .off
      count := 0
      outputIndex := 0
      brokenWindows := 0
      window := none
      afterGap := false }

end Sys2Proof.Machine
end

