-- ==== Sys2Proof/Machine/Resets.lean ====
section
/-! DEFINITION. Hard reset and initialisation (R165), the blocks' shares of RESTART (R145, section 7.9)
and of CLEAR_COUNTERS (R142). -/

namespace Sys2Proof.Machine

/-! ### Hard reset (R165) -/

/-- A port at hard reset: its hard-reset values, with the frame being sent cut off. What it has put on
its link so far stays on record. -/
def Port.hardReset (x : Port) : Port := { Port.reset with line := x.cutFrame.line }

/-- Every block takes its hard-reset values (R165); the commands that wait stay, and the model's count of
free choices goes on. -/
def State.hardReset (s : State) (straps : Fin 16) : State :=
  { State.resetWith straps with
    fPort := s.fPort.hardReset
    cPort := s.cPort.hardReset
    choices := s.choices
    pending := s.pending }

/-- Whether the cause is long enough to be a hard reset: a low on RSTn that ends before 10 µs is ignored
(R165). -/
def resetTakesEffect : ResetCause → Bool
  | .powerOn => true
  | .rstnLow micros => decide (Config.resetLowTime ≤ micros)

/-- HARD_RESET (R165): from its beginning to its end, when the straps are read (R127). -/
def execHardReset (cause : ResetCause) (straps : Fin 16) (s : State) :
    Host.Outcome State Fault Refusal :=
  if resetTakesEffect cause then .next (s.hardReset straps) else .next s

/-- A port at the end of initialisation: TRAINING with train count 0 and heard off (R165). -/
def Port.beginTraining (x : Port) : Port :=
  { x with link := .training, trainCount := 0, heard := false }

/-- INITIALISATION_COMPLETE (R66, R113, R165): capture memory is clear, the timebase is set to 0,
STARTED(HARD) is queued and both ports enter TRAINING, in one event. -/
def execInitialisationComplete (s : State) : Host.Outcome State Fault Refusal :=
  match s.phase with
  | .initialising =>
    .next { s with
      phase := .operating
      timebase := 0
      memory := ⟨[]⟩
      events := s.events.started 0
      fPort := s.fPort.beginTraining
      cPort := s.cPort.beginTraining }
  | .operating => .next s

/-! ### RESTART (R145) -/

/-- A channel at RESTART (R10). -/
def Channel.restarted (c : Channel) : Channel :=
  { c with sampleIndex := 0, lastValue := none, gapMarks := 0 }

/-- The classifier at RESTART (R5, R8, R10). -/
def Classifier.restarted (c : Classifier) : Classifier :=
  { c with
    nodes := c.nodes.map fun _ => NodeEntry.reset
    channels := c.channels.map Channel.restarted
    staleFrames := 0 }

/-- The receive counts of a port zeroed (R164). -/
def Port.clearCounts (x : Port) : Port := { x with framesGood := 0, crcErrors := 0, malformed := 0 }

/-- One block's share of RESTART (R145, section 7.9). The capture unit's takes the readout engine's and
the egress scheduler's into its event (R104), and the event unit's the timebase (R113). A port's counts
return to 0 (R164), and its hold sent follows the emptying it is told of (R170; assumption 17). The
event unit's comes behind the others (assumption 25), and the management unit's own share last, with the
reply (R147). -/
def State.restartShare (b : Block) (s : State) : State :=
  match b with
  | .classifier => { s with classifier := s.classifier.restarted }
  | .reduction => { s with slots := s.slots.map Slot.restarted }
  | .watch => { s with rules := s.rules.map Rule.restarted }
  | .capture =>
    { s.restartEgress with rings := s.rings.map Ring.restarted, readout := s.readout.restarted }
  | .events =>
    { s with timebase := 0, events := s.events.restarted (decide (s.cPort.link = .up)) }
  | .fPort => { s with fPort := s.fPort.clearCounts }
  | .cPort => { s with cPort := s.cPort.clearCounts }
  | .readout => s
  | .egress => s

/-! ### CLEAR_COUNTERS (R142) -/

/-- The counts of a NODE entry zeroed; state and expected sequence kept (R5). -/
def NodeEntry.clearCounts (n : NodeEntry) : NodeEntry :=
  { n with accepted := 0, gaps := 0, missing := 0, stale := 0 }

/-- One block's share of CLEAR_COUNTERS: its counts of R140 zeroed, and the classifier's NODE counts
(R142). -/
def State.clearShare (b : Block) (s : State) : State :=
  match b with
  | .fPort => { s with fPort := s.fPort.clearCounts }
  | .cPort => { s with cPort := s.cPort.clearCounts }
  | .classifier =>
    { s with classifier := { s.classifier with
        nodes := s.classifier.nodes.map NodeEntry.clearCounts
        staleFrames := 0 } }
  | .readout => { s with readout := { s.readout with completed := 0, aborted := 0 } }
  | .events => { s with events := { s.events with lifetimeLoss := 0 } }
  | .egress =>
    { s with egress :=
      { s.egress with fwDrops := 0, downDiscards := 0, reducedDropped := 0, obDrops := 0 } }
  | .reduction => s
  | .watch => s
  | .capture => s

end Sys2Proof.Machine
end

