-- ==== Sys2Proof/Machine/Tables.lean ====
section
/-! DEFINITION. Table access (section 7.4): what READ_ENTRY, WRITE_ENTRY, ENABLE and DISABLE check and do
at each table. Each answers a status and the state after it. -/

namespace Sys2Proof.Machine

/-! ### READ_ENTRY (R133) -/

/-- The entry record of a table at an index; none where the index is outside the table's range. -/
def State.entryRecord (s : State) (t : TableId) (i : Nat) : Option (List Byte) :=
  match t with
  | .channel => (indexBelow 64 i).map fun c => (s.channel c).entryRecord
  | .node => (nodeIndex i).map fun n => (s.classifier.nodes.get n).entryRecord
  | .slot => (indexBelow 16 i).map fun k => (s.slots.get k).entryRecord
  | .rule => (indexBelow 32 i).map fun k => (s.rules.get k).entryRecord
  | .ring => (indexBelow 8 i).map fun k => (s.rings.get k).entryRecord
  | .global => if i = 0 then some s.management.global.entryRecord else none

/-! ### WRITE_ENTRY (R134, R135) -/

/-- Checks 4 to 7 of R134 at one entry and the write: the mask, the bound fields of an enabled entry,
the values, and one more condition on the entry as it would stand. -/
def writeChecked {α : Type} (t : TableId) (enabled : Bool) (mask : Nat) (new : Option α)
    (fits : α → Bool) (s : State) (put : α → State) : Status × State :=
  if maskGood t mask = false then (.badValue, s)
  else if enabled = true ∧ maskBound t mask = true then (.liveField, s)
  else
    match new with
    | some x => if fits x then (.ok, put x) else (.badValue, s)
    | none => (.badValue, s)

/-- WRITE_ENTRY at a CHANNEL entry (R9, R134, R135). -/
def State.writeChannel (s : State) (c : Fin 64) (mask : Nat) (v : List Byte) : Status × State :=
  writeChecked .channel (s.channel c).enabled mask ((s.channel c).write mask v) (fun _ => true) s
    (s.setChannel c)

/-- WRITE_ENTRY at a SLOT entry (R23, R134, R135). -/
def State.writeSlot (s : State) (k : Fin 16) (mask : Nat) (v : List Byte) : Status × State :=
  writeChecked .slot (s.slots.get k).enabled mask ((s.slots.get k).write mask v) (fun _ => true) s
    fun y => s.setSlot k ((s.slots.get k).rewritten y)

/-- WRITE_ENTRY at a RULE entry: an enabled rule must stay consistent (R42, R45, R134, R135). -/
def State.writeRule (s : State) (k : Fin 32) (mask : Nat) (v : List Byte) : Status × State :=
  writeChecked .rule (s.rules.get k).enabled mask ((s.rules.get k).write mask v)
    (fun r => !r.enabled || r.consistent) s fun y => s.setRule k ((s.rules.get k).rewritten y)

/-- WRITE_ENTRY at a RING entry (R67, R134, R135). -/
def State.writeRing (s : State) (k : Fin 8) (mask : Nat) (v : List Byte) : Status × State :=
  writeChecked .ring (s.rings.get k).enabled mask ((s.rings.get k).write mask v) (fun _ => true) s
    fun y => s.setRing k ((s.rings.get k).rewritten y)

/-- Replace GLOBAL. -/
def State.setGlobal (s : State) (g : Global) : State :=
  { s with management := { s.management with global := g } }

/-- WRITE_ENTRY at GLOBAL (R134, R135, R138). -/
def State.writeGlobal (s : State) (mask : Nat) (v : List Byte) : Status × State :=
  writeChecked .global false mask (s.management.global.write mask v) (fun _ => true) s s.setGlobal

/-- An operation at the entry an index names, or BAD_VALUE where there is none. -/
def atIndex {n : Nat} (i : Option (Fin n)) (s : State) (op : Fin n → Status × State) : Status × State :=
  match i with
  | some k => op k
  | none => (.badValue, s)

/-- WRITE_ENTRY from check 2 of R134 on. -/
def State.writeEntry (s : State) (t : TableId) (i mask : Nat) (v : List Byte) : Status × State :=
  match t with
  | .channel => atIndex (indexBelow 64 i) s fun c => s.writeChannel c mask v
  | .node => (.badTable, s)
  | .slot => atIndex (indexBelow 16 i) s fun k => s.writeSlot k mask v
  | .rule => atIndex (indexBelow 32 i) s fun k => s.writeRule k mask v
  | .ring => atIndex (indexBelow 8 i) s fun k => s.writeRing k mask v
  | .global => if i = 0 then s.writeGlobal mask v else (.badValue, s)

/-! ### ENABLE (R11, R25, R44, R69) -/

/-- The read-only fields of a channel at ENABLE (R10). -/
def Channel.enabledFresh (c : Channel) : Channel :=
  { c with enabled := true, sampleIndex := 0, lastValue := none, gapMarks := 0 }

/-- Whether another enabled channel has the key of channel `c` (R11 check 3). -/
def State.keyTaken (s : State) (c : Fin 64) : Bool :=
  (List.finRange 64).any fun d =>
    decide (d ≠ c) && (s.channel d).enabled && decide ((s.channel d).node = (s.channel c).node)
      && decide ((s.channel d).input = (s.channel c).input)

/-- ENABLE of a CHANNEL entry (R11). Its stream begins anew (R10, R15): nothing it offered before is in
flight any more. -/
def State.enableChannel (s : State) (c : Fin 64) : Status × State :=
  let x := s.channel c
  if x.enabled then (.state, s)
  else if x.node = 0 ∨ x.node = s.ownNode then (.badValue, s)
  else if s.keyTaken c then (.duplicateKey, s)
  else (.ok, (s.passBy fun src => decide (src = .channel c)).setChannel c x.enabledFresh)

/-- ENABLE of a SLOT entry (R25). Its output stream begins anew (R24, R71): nothing it offered before is
in flight any more. What its channel has in flight to it from a former enabling stays so, as for a rule
(assumption 9). -/
def State.enableSlot (s : State) (k : Fin 16) : Status × State :=
  let x := s.slots.get k
  if x.enabled then (.state, s)
  else if x.mode = .enhance ∧ x.exponent % 2 = 1 then (.badValue, s)
  else if (s.channel x.channel).enabled = false then (.dependent, s)
  else (.ok, (s.passBy fun src => decide (src = .slot k)).setSlot k x.enabledFresh)

/-- Whether a freeze ring, where one is named, is enabled in SNAPSHOT mode (R44 check 5). -/
def State.freezeTargetGood (s : State) : Option (Fin 8) → Bool
  | some g => (s.rings.get g).enabled && decide ((s.rings.get g).mode = .snapshot)
  | none => true

/-- Whether a start slot, where one is named, is enabled with trigger GATED (R44 check 6). -/
def State.startTargetGood (s : State) : Option (Fin 16) → Bool
  | some j => (s.slots.get j).enabled && decide ((s.slots.get j).trigger = .gated)
  | none => true

/-- ENABLE of a RULE entry (R44). DESIGN CHOICE: items of several earlier frames or outputs, offered in a
former enabling and still in flight, are taken after an ENABLE before which no frame was processed, or its
slot gave nothing, since the DISABLE (assumption 9). -/
def State.enableRule (s : State) (k : Fin 32) : Status × State :=
  let r := s.rules.get k
  if r.enabled then (.state, s)
  else if r.source = none then (.badValue, s)
  else if r.consistent = false then (.badValue, s)
  else if s.sourceEnabled r.source = false then (.dependent, s)
  else if s.freezeTargetGood r.freezeRing = false then (.dependent, s)
  else if s.startTargetGood r.startSlot = false then (.dependent, s)
  else (.ok, s.setRule k r.enabledFresh)

/-- Whether the ranges of two rings share a word (R69 check 4). -/
def Ring.overlaps (r q : Ring) : Bool :=
  decide (r.base < q.base + q.length) && decide (q.base < r.base + r.length)

/-- Whether the range of ring `k` shares a word with that of another enabled ring (R69 check 4). -/
def State.rangeTaken (s : State) (k : Fin 8) : Bool :=
  (List.finRange 8).any fun j =>
    decide (j ≠ k) && (s.rings.get j).enabled && (s.rings.get j).overlaps (s.rings.get k)

/-- ENABLE of a RING entry (R69). What is in flight to the ring from a former enabling stays so, as for a rule
(assumption 9). -/
def State.enableRing (s : State) (k : Fin 8) : Status × State :=
  let r := s.rings.get k
  if r.enabled then (.state, s)
  else if r.length = 0 then (.badValue, s)
  else if r.source = none then (.badValue, s)
  else if s.rangeTaken k then (.overlap, s)
  else if s.sourceEnabled r.source = false then (.dependent, s)
  else (.ok, s.setRing k r.enabledFresh)

/-- ENABLE from check 2 of R136 on. -/
def State.enableEntry (s : State) (t : TableId) (i : Nat) : Status × State :=
  match t with
  | .channel => atIndex (indexBelow 64 i) s s.enableChannel
  | .node => (.badTable, s)
  | .slot => atIndex (indexBelow 16 i) s s.enableSlot
  | .rule => atIndex (indexBelow 32 i) s s.enableRule
  | .ring => atIndex (indexBelow 8 i) s s.enableRing
  | .global => (.badTable, s)

/-! ### DISABLE (R12, R26, R46, R70) -/

/-- DISABLE of a CHANNEL entry (R12): the read-only fields keep their values (R10). -/
def State.disableChannel (s : State) (c : Fin 64) : Status × State :=
  let x := s.channel c
  if x.enabled = false then (.state, s)
  else if s.channelHasConsumer c then (.dependent, s)
  else (.ok, s.setChannel c { x with enabled := false })

/-- DISABLE of a SLOT entry (R26). -/
def State.disableSlot (s : State) (k : Fin 16) : Status × State :=
  let x := s.slots.get k
  if x.enabled = false then (.state, s)
  else if s.slotHasDependent k then (.dependent, s)
  else (.ok, s.setSlot k x.disabledFresh)

/-- DISABLE of a RULE entry (R46). -/
def State.disableRule (s : State) (k : Fin 32) : Status × State :=
  let r := s.rules.get k
  if r.enabled = false then (.state, s) else (.ok, s.setRule k r.disabledFresh)

/-- The ring the readout engine's record names (R70 check 2): a readout in progress, or an aborted one
whose terminating frame has not been granted. -/
def EngineState.ring : EngineState → Option (Fin 8)
  | .free => none
  | .sending x => some x.ring
  | .terminating x => some x.ring

/-- DISABLE of a RING entry (R70). -/
def State.disableRing (s : State) (k : Fin 8) : Status × State :=
  let r := s.rings.get k
  if r.enabled = false then (.state, s)
  else if s.readout.engine.ring = some k then (.busy, s)
  else if s.ringHasFreezer k then (.dependent, s)
  else (.ok, s.setRing k r.disabledFresh)

/-- DISABLE from check 2 of R136 on. -/
def State.disableEntry (s : State) (t : TableId) (i : Nat) : Status × State :=
  match t with
  | .channel => atIndex (indexBelow 64 i) s s.disableChannel
  | .node => (.badTable, s)
  | .slot => atIndex (indexBelow 16 i) s s.disableSlot
  | .rule => atIndex (indexBelow 32 i) s s.disableRule
  | .ring => atIndex (indexBelow 8 i) s s.disableRing
  | .global => (.badTable, s)

end Sys2Proof.Machine
end

