-- ==== Sys2Proof/Machine/Requests.lean ====
section
/-! DEFINITION. The management unit (chapter 7): the stages by which a request is taken, the reply cache,
and the execution of every request. Each request command acts on the request the management unit is
executing (R129), and only where that request is its own. -/

namespace Sys2Proof.Machine

/-! ### Taking a request (R128 to R131) -/

/-- The request being executed is finished: the oldest one that waits is taken next (R129). -/
def State.finishRequest (s : State) : State :=
  { s with management := { s.management with
      current := s.management.waiting.head?
      shares := Shares.reset
      waiting := s.management.waiting.tail } }

/-- A reply to a request. -/
def Request.reply (q : Request) (status : Status) (results : List Byte) : Reply where
  tag := q.tag
  number := q.number
  code := q.code
  status := status
  results := results

/-- The reply of an executed request replaces its tag's cache entry and is placed in MR (R130, R131). -/
def State.cacheAndPlace (s : State) (q : Request) (status : Status) (results : List Byte) : State :=
  let r := q.reply status results
  ({ s with management := { s.management with
      cache := s.management.cache.set (tagPlace q.tag) (some ⟨q.number, r⟩) } }).placeReply
    (tagPlace q.tag) r

/-- What an execution answers: the status, the results that go with OK or ACCEPTED (R130), and the state
after it. -/
abbrev Answer := Status × List Byte × State

/-- An execution with no results. -/
def bare (x : Status × State) : Answer := (x.1, [], x.2)

/-- Stages 2 to 6 of R128 for a request, and its finish. -/
def State.serve (s : State) (q : Request) (lengthGood : Bool) (run : State → Option Answer) :
    Option State :=
  if Config.tags ≤ q.tag.toNat then
    some (s.placeReply (tagPlace q.tag) (q.reply .badLength [])).finishRequest
  else
    match s.cachedFor q with
    | some r => some (s.placeReply (tagPlace q.tag) r).finishRequest
    | none =>
      if lengthGood then
        (run s).map fun a => (a.2.2.cacheAndPlace q a.1 a.2.1).finishRequest
      else some (s.placeReply (tagPlace q.tag) (q.reply .badLength [])).finishRequest

/-- A request command: the request being executed is taken where it has the command's code. -/
def State.request (s : State) (code : Nat) (run : List Byte → State → Option Answer) :
    Host.Outcome State Fault Refusal :=
  match s.currentRequest with
  | some q =>
    if q.code.toNat = code then
      captureOutcome (s.serve q (argumentLengthGood code q.args) (run q.args))
    else .next s
  | none => .next s

/-! ### Requests that several blocks take part in (R129, R141, R142, R145) -/

/-- Those of some blocks that have not taken their share of the request being executed. -/
def State.outstanding (s : State) (blocks : List Block) : List Block :=
  blocks.filter fun b => decide (b ∉ s.management.shares.taken)

/-- A block's share is noted as taken. -/
def State.noteShare (s : State) (b : Block) : State :=
  { s with management := { s.management with
      shares := { s.management.shares with taken := s.management.shares.taken ++ [b] } } }

/-- A block does its work and its share is noted, as one event. -/
def State.takeShare (work : Block → State → State) (s : State) (b : Block) : State :=
  (work b s).noteShare b

/-- The block that takes its share next: one of those outstanding, which one is free (R145;
assumption 24); none when every block has taken its share. -/
def State.chooseShare (s : State) (blocks : List Block) : Option Block :=
  (s.outstanding blocks)[Config.nextShare s.choices % (s.outstanding blocks).length]?

/-- The next event of a request that several blocks take part in: each of `blocks` does its `work` in an
event of its own, with any other commands between, and then the management unit makes the reply (R129,
R141, R142, R145). -/
def State.gather (s : State) (code : Nat) (blocks : List Block) (work : Block → State → State)
    (answer : State → Answer) : Host.Outcome State Fault Refusal :=
  match s.executes code, s.chooseShare blocks with
  | true, some b => .next { s.takeShare work b with choices := s.choices + 1 }
  | _, _ => s.request code fun _ t => some (answer t)

/-- REQUEST_TOO_SHORT (R128 stage 1): dropped without a reply and counted. -/
def execRequestTooShort (s : State) : Host.Outcome State Fault Refusal :=
  match s.management.current with
  | some payload =>
    match readRequest payload with
    | none => .next (s.chargeMalformed .c).finishRequest
    | some _ => .next s
  | none => .next s

/-- UNKNOWN_CODE (R128 stage 4): the reply is cached. -/
def execUnknownCode (s : State) : Host.Outcome State Fault Refusal :=
  match s.currentRequest with
  | some q =>
    if codeKnown q.code.toNat then .next s
    else captureOutcome (s.serve q true fun t => some (.unknownRequest, [], t))
  | none => .next s

/-! ### Identity, status, counters and time (R140 to R144) -/

/-- The results of IDENT (R144, section 10.3). -/
def State.identResults (s : State) : List Byte :=
  bytes2 Config.vendorCode ++ bytes2 Config.partCode
    ++ [byteOf Config.revision, byteOf s.ownNode, 64, 30, 16, 32, 8]
    ++ bytes4 Config.captureWords ++ [byteOf Config.eventCapacity, byteOf Config.tags]

/-- IDENT (R144). -/
def execIdent (s : State) : Host.Outcome State Fault Refusal :=
  s.request codeIdent fun _ t => some (.ok, t.identResults, t)

/-- The readout id in READ_STATUS: 0 while the engine is FREE (section 10.3). -/
def EngineState.readoutId : EngineState → Nat
  | .free => 0
  | .sending x => x.id
  | .terminating x => x.id

/-- What a port gives READ_STATUS (R140). -/
def Port.reading (x : Port) : PortReading := ⟨x.framesGood, x.crcErrors, x.malformed, x.link⟩

/-- What the egress scheduler gives READ_STATUS (R140). -/
def Egress.reading (e : Egress) : EgressReading :=
  ⟨e.fwDrops, e.downDiscards, e.reducedDropped, e.obDrops,
    e.fw.length, e.dt.length, e.mr.length, e.ob.length⟩

/-- What the event unit gives READ_STATUS (R140). -/
def EventUnit.reading (e : EventUnit) : EventReading :=
  ⟨e.lifetimeLoss, e.queue.length, sentCount e.queue, e.delivery, e.retry⟩

/-- What the readout engine gives READ_STATUS, with its frames in DT (R140). -/
def Readout.reading (x : Readout) (dt : List DtFrame) : ReadoutReading :=
  ⟨x.completed, x.aborted, readoutsInDt dt, x.engine.code, x.engine.readoutId⟩

/-- What a block gives is kept for the reply. -/
def State.setReadings (s : State) (x : Readings) : State :=
  { s with management := { s.management with
      shares := { s.management.shares with readings := x } } }

/-- One block's share of READ_STATUS: it gives all its values at once (R141). -/
def State.statusShare (b : Block) (s : State) : State :=
  let x := s.management.shares.readings
  match b with
  | .fPort => s.setReadings { x with fPort := s.fPort.reading }
  | .cPort => s.setReadings { x with cPort := s.cPort.reading }
  | .egress => s.setReadings { x with egress := s.egress.reading }
  | .events => s.setReadings { x with events := s.events.reading }
  | .classifier => s.setReadings { x with classifier := s.classifier.staleFrames }
  | .readout => s.setReadings { x with readout := s.readout.reading s.egress.dt }
  | .reduction => s
  | .watch => s
  | .capture => s

/-- The results of READ_STATUS, in the order of R140 (section 10.3). -/
def Readings.results (x : Readings) : List Byte :=
  ([x.fPort.framesGood, x.fPort.crcErrors, x.fPort.malformed,
    x.cPort.framesGood, x.cPort.crcErrors, x.cPort.malformed,
    x.egress.fwDrops, x.egress.downDiscards, x.egress.reducedDropped, x.egress.obDrops,
    x.events.lifetimeLoss, x.classifier,
    x.readout.completed, x.readout.aborted].flatMap bytes4)
  ++ [byteOf x.egress.fw, byteOf x.egress.dt, byteOf x.egress.mr, byteOf x.egress.ob,
    byteOf x.readout.inDt, byteOf x.events.records, byteOf x.events.sent,
    byteOf x.events.delivery.code, byteOf x.events.retry,
    byteOf x.readout.state, byteOf x.readout.id, byteOf x.fPort.link.code]

/-- The blocks that own what READ_STATUS reports and CLEAR_COUNTERS zeroes (R140). -/
def statusOwners : List Block := [.fPort, .cPort, .egress, .events, .classifier, .readout]

/-- READ_STATUS (R140, R141). -/
def execReadStatus (s : State) : Host.Outcome State Fault Refusal :=
  s.gather codeReadStatus statusOwners State.statusShare
    fun t => (.ok, t.management.shares.readings.results, t)

/-- CLEAR_COUNTERS (R142). -/
def execClearCounters (s : State) : Host.Outcome State Fault Refusal :=
  s.gather codeClearCounters statusOwners State.clearShare fun t => (.ok, [], t)

/-- SET_TIME (R3, R143). -/
def execSetTime (s : State) : Host.Outcome State Fault Refusal :=
  s.request codeSetTime fun args t => some (.ok, [], { t with timebase := read4 args 0 })

/-! ### Table access (R133 to R136) -/

/-- READ_ENTRY (R133). -/
def execReadEntry (s : State) : Host.Outcome State Fault Refusal :=
  s.request codeReadEntry fun args t =>
    match (tableOf (byteAt args 0)).bind fun x => t.entryRecord x (byteAt args 1) with
    | some record => some (.ok, record, t)
    | none => some (.badValue, [], t)

/-- WRITE_ENTRY (R134, R135). -/
def execWriteEntry (s : State) : Host.Outcome State Fault Refusal :=
  s.request codeWriteEntry fun args t =>
    match tableOf (byteAt args 0) with
    | some x => some (bare (t.writeEntry x (byteAt args 1) (read4 args 2) (args.drop 6)))
    | none => some (.badValue, [], t)

/-- ENABLE (R136). -/
def execEnable (s : State) : Host.Outcome State Fault Refusal :=
  s.request codeEnable fun args t =>
    match tableOf (byteAt args 0) with
    | some x => some (bare (t.enableEntry x (byteAt args 1)))
    | none => some (.badValue, [], t)

/-- DISABLE (R136). -/
def execDisable (s : State) : Host.Outcome State Fault Refusal :=
  s.request codeDisable fun args t =>
    match tableOf (byteAt args 0) with
    | some x => some (bare (t.disableEntry x (byteAt args 1)))
    | none => some (.badValue, [], t)

/-! ### Readouts (R93, R94, R101) -/

/-- Whether a part fits a ring's mode (R93 check 4). -/
def RingPart.fits (part : RingPart) (mode : RingMode) : Bool :=
  match part.half, mode with
  | some _, .stream => true
  | none, .snapshot => true
  | _, _ => false

/-- Whether a part can be read: a FULL half, a FROZEN snapshot (R93 checks 5 and 6). -/
def Ring.partReady (r : Ring) (part : RingPart) : Bool :=
  match part.half with
  | some h => decide ((r.stream.half h).state = .full)
  | none => decide (r.snapshot.state = .frozen)

/-- The status of a READ_RING request, by the checks of R93 from check 2 on. -/
def State.readRingStatus (s : State) (k : Fin 8) (part : RingPart) : Status :=
  let r := s.rings.get k
  if s.readout.engine ≠ .free then .busy
  else if r.enabled = false then .state
  else if part.fits r.mode = false then .badValue
  else if r.partReady part = false then .state
  else .accepted

/-- The results of an accepted READ_RING: the readout id and the total words (R94 step 4). -/
def State.readRingResults (s : State) (k : Fin 8) (part : RingPart) : List Byte :=
  byteOf s.readout.nextId :: bytes4 ((s.rings.get k).partWords part)

/-- A READ_RING request (R93, R94). -/
def State.readRing (s : State) (k : Fin 8) (part : RingPart) : Option Answer :=
  if s.readRingStatus k part = .accepted then
    (s.acceptReadout k part).examineEngine.map fun t => (.accepted, s.readRingResults k part, t)
  else some (s.readRingStatus k part, [], s)

/-- READ_RING (R93, R94). -/
def execReadRing (s : State) : Host.Outcome State Fault Refusal :=
  s.request codeReadRing fun args t =>
    match indexBelow 8 (byteAt args 0), ringPartOf (byteAt args 1) with
    | some k, some part => t.readRing k part
    | _, _ => some (.badValue, [], t)

/-- ABORT_READ (R101). -/
def execAbortRead (s : State) : Host.Outcome State Fault Refusal :=
  s.request codeAbortRead fun _ t =>
    match t.readout.engine with
    | .sending x => some (.ok, [], t.abortReadout x)
    | _ => some (.state, [], t)

/-! ### Ring requests (R78, R79, R83, R88) -/

/-- A FULL half released: EMPTY with fill 0 and its flags clear, and FILLING at once if the writer awaits
it (R78). -/
def StreamState.release (x : StreamState) (h : HalfId) : StreamState :=
  let y := x.setHalf h Half.reset
  if x.writer = .stalled h then y.beginFilling h else y

/-- RELEASE_HALF from check 2 of R78 on. -/
def State.releaseHalf (s : State) (k : Fin 8) (h : HalfId) : Status × State :=
  let r := s.rings.get k
  if r.enabled = false then (.state, s)
  else if r.mode = .snapshot then (.badValue, s)
  else
    match (r.stream.half h).state with
    | .reading => (.busy, s)
    | .empty => (.state, s)
    | .filling => (.state, s)
    | .full => (.ok, s.setRing k { r with stream := r.stream.release h })

/-- RELEASE_HALF (R78). -/
def execReleaseHalf (s : State) : Host.Outcome State Fault Refusal :=
  s.request codeReleaseHalf fun args t =>
    match indexBelow 8 (byteAt args 0), halfOf (byteAt args 1) with
    | some k, some h => some (bare (t.releaseHalf k h))
    | _, _ => some (.badValue, [], t)

/-- FLUSH_RING from check 2 of R79 on. -/
def State.flushRing (s : State) (k : Fin 8) : Status × State :=
  let r := s.rings.get k
  if r.enabled = false then (.state, s)
  else if r.mode = .snapshot then (.badValue, s)
  else
    match r.stream.writer with
    | .filling h =>
      if (r.stream.half h).fill = 0 then (.state, s)
      else
        let x := r.closeHalf k h s.timebase
        (.ok, (s.setRing k x.1).requestEvents x.2)
    | _ => (.state, s)

/-- FLUSH_RING (R79). -/
def execFlushRing (s : State) : Host.Outcome State Fault Refusal :=
  s.request codeFlushRing fun args t =>
    some (bare (atIndex (indexBelow 8 (byteAt args 0)) t t.flushRing))

/-- FREEZE_RING from check 2 of R83 on. -/
def State.freezeRing (s : State) (k : Fin 8) : Status × State :=
  let r := s.rings.get k
  if r.enabled = false then (.state, s)
  else if r.mode = .stream then (.badValue, s)
  else if r.snapshot.state ≠ .run then (.state, s)
  else (.ok, s.ringTakesFreeze k r .manual)

/-- FREEZE_RING (R83). -/
def execFreezeRing (s : State) : Host.Outcome State Fault Refusal :=
  s.request codeFreezeRing fun args t =>
    some (bare (atIndex (indexBelow 8 (byteAt args 0)) t t.freezeRing))

/-- REARM_RING from check 2 of R88 on. -/
def State.rearmRing (s : State) (k : Fin 8) : Status × State :=
  let r := s.rings.get k
  if r.enabled = false then (.state, s)
  else if r.mode = .stream then (.badValue, s)
  else
    match r.snapshot.state with
    | .reading => (.busy, s)
    | .frozen => (.ok, s.setRing k { r with snapshot := SnapshotState.begun })
    | _ => (.state, s)

/-- REARM_RING (R88). -/
def execRearmRing (s : State) : Host.Outcome State Fault Refusal :=
  s.request codeRearmRing fun args t =>
    some (bare (atIndex (indexBelow 8 (byteAt args 0)) t t.rearmRing))

/-! ### START_SLOT (R36, R37) -/

/-- START_SLOT from check 2 of R37 on: a slot that takes no START refuses it. -/
def State.startSlot (s : State) (k : Fin 16) : Status × State :=
  let x := s.slots.get k
  if x.takesStart then (.ok, s.setSlot k x.afterStart) else (.state, s)

/-- START_SLOT (R37). -/
def execStartSlot (s : State) : Host.Outcome State Fault Refusal :=
  s.request codeStartSlot fun args t =>
    some (bare (atIndex (indexBelow 16 (byteAt args 0)) t t.startSlot))

/-! ### Events (R120, R122) -/

/-- EVENT_ACK (R120). -/
def execEventAck (s : State) : Host.Outcome State Fault Refusal :=
  s.request codeEventAck fun args t =>
    match ackLength t.events.queue (read2 args 0) with
    | some n =>
      some (.ok, [byteOf n],
        { t with events := t.events.acked n t.management.global.retransmitTimeout t.timebase })
    | none => some (.state, [], t)

/-- EVENT_RESYNC (R122). -/
def execEventResync (s : State) : Host.Outcome State Fault Refusal :=
  s.request codeEventResync fun _ t =>
    if t.events.delivery = .suspended then some (.state, [], t)
    else some (.ok, [], { t with events := t.events.resynced })

/-! ### RESTART (R145, R147) -/

/-- The blocks that take a share of RESTART in events of their own, in an order that is not fixed, the capture
unit for the readout engine and the egress scheduler too (R145). The event unit comes behind them, with
nothing between its share and the reply (R113; assumption 25). -/
def restartBlocks : List Block :=
  [.classifier, .reduction, .watch, .capture, .fPort, .cPort]

/-- The management unit's share of RESTART before its reply: the reply cache and MR are emptied (R147
steps 1 and 2). -/
def State.restartManagement (s : State) : State :=
  { s with
    management := { s.management with cache := Table.replicate 4 none }
    egress := { s.egress with mr := [] } }

/-- RESTART (R113, R145, R146, R147): one block's share, or, when only the event unit's is left, that share
and at once the management unit's, with the reply (assumption 25). -/
def execRestart (s : State) : Host.Outcome State Fault Refusal :=
  s.gather codeRestart restartBlocks State.restartShare
    fun t => (.ok, [], (t.restartShare .events).restartManagement)

end Sys2Proof.Machine
end

