-- ==== Sys2Proof/Machine/Dispatch.lean ====
section
/-! DEFINITION. The meaning of every command, one arm each. -/

namespace Sys2Proof.Machine

/-- What a command does to everything but the queue of commands that wait. -/
def exec (i : Instr) (s : State) : Host.Outcome State Fault Refusal :=
  match i with
  | .hardReset cause straps => Sys2Proof.Machine.execHardReset cause straps s
  | .initialisationComplete => Sys2Proof.Machine.execInitialisationComplete s
  | .receiveTrain p heard => Sys2Proof.Machine.execReceiveTrain p heard s
  | .undecodableSymbol p => Sys2Proof.Machine.execUndecodableSymbol p s
  | .receiveHold p => Sys2Proof.Machine.execReceiveHold p s
  | .receiveGo p => Sys2Proof.Machine.execReceiveGo p s
  | .lossOfLock p => Sys2Proof.Machine.execLossOfLock p s
  | .frameReceived p bytes => Sys2Proof.Machine.execFrameReceived p bytes s
  | .holdSentChange p => Sys2Proof.Machine.execHoldSentChange p s
  | .flowSymbolRepeat p => Sys2Proof.Machine.execFlowSymbolRepeat p s
  | .sampleFrameTaken => Sys2Proof.Machine.execSampleFrameTaken s
  | .fPortLeavingUpClassifier => Sys2Proof.Machine.execFPortLeavingUpClassifier s
  | .fwPlace way => Sys2Proof.Machine.execFwPlace way s
  | .slotTakeSample k => Sys2Proof.Machine.execSlotTakeSample k s
  | .slotTakeGapMark k => Sys2Proof.Machine.execSlotTakeGapMark k s
  | .slotStart k => Sys2Proof.Machine.execSlotStart k s
  | .ruleTakeValue k => Sys2Proof.Machine.execRuleTakeValue k s
  | .ruleTakeGapMark k => Sys2Proof.Machine.execRuleTakeGapMark k s
  | .ringTakeItem k => Sys2Proof.Machine.execRingTakeItem k s
  | .ringTakeGapMark k => Sys2Proof.Machine.execRingTakeGapMark k s
  | .ringFreeze k rule => Sys2Proof.Machine.execRingFreeze k rule s
  | .assemblerTakeRecord k => Sys2Proof.Machine.execAssemblerTakeRecord k s
  | .reducedHoldExpiry => Sys2Proof.Machine.execReducedHoldExpiry s
  | .eventEnqueue r => Sys2Proof.Machine.execEventEnqueue r s
  | .retransmitTimeout => Sys2Proof.Machine.execRetransmitTimeout s
  | .deliverySuspend => Sys2Proof.Machine.execDeliverySuspend s
  | .deliveryResume => Sys2Proof.Machine.execDeliveryResume s
  | .arbiterGrant => Sys2Proof.Machine.execArbiterGrant s
  | .readoutFrameProduce => Sys2Proof.Machine.execReadoutFrameProduce s
  | .terminatingFramePlace => Sys2Proof.Machine.execTerminatingFramePlace s
  | .obSend => Sys2Proof.Machine.execObSend s
  | .cPortLeavingUpEgress => Sys2Proof.Machine.execCPortLeavingUpEgress s
  | .cPortComingUpEgress => Sys2Proof.Machine.execCPortComingUpEgress s
  | .fPortLeavingUpEgress => Sys2Proof.Machine.execFPortLeavingUpEgress s
  | .ident => Sys2Proof.Machine.execIdent s
  | .readEntry => Sys2Proof.Machine.execReadEntry s
  | .writeEntry => Sys2Proof.Machine.execWriteEntry s
  | .enable => Sys2Proof.Machine.execEnable s
  | .disable => Sys2Proof.Machine.execDisable s
  | .readStatus => Sys2Proof.Machine.execReadStatus s
  | .clearCounters => Sys2Proof.Machine.execClearCounters s
  | .setTime => Sys2Proof.Machine.execSetTime s
  | .readRing => Sys2Proof.Machine.execReadRing s
  | .abortRead => Sys2Proof.Machine.execAbortRead s
  | .releaseHalf => Sys2Proof.Machine.execReleaseHalf s
  | .flushRing => Sys2Proof.Machine.execFlushRing s
  | .freezeRing => Sys2Proof.Machine.execFreezeRing s
  | .rearmRing => Sys2Proof.Machine.execRearmRing s
  | .startSlot => Sys2Proof.Machine.execStartSlot s
  | .eventAck => Sys2Proof.Machine.execEventAck s
  | .eventResync => Sys2Proof.Machine.execEventResync s
  | .restart => Sys2Proof.Machine.execRestart s
  | .unknownCode => Sys2Proof.Machine.execUnknownCode s
  | .frameSendComplete p => Sys2Proof.Machine.execFrameSendComplete p s
  | .requestTooShort => Sys2Proof.Machine.execRequestTooShort s

end Sys2Proof.Machine
end

