-- ==== Sys2Proof/Safety.lean ====
section
/-! DEFINITION. What counts as a sound state of the part: the properties the manual says always hold, one
definition each, and what counts as going on. -/

namespace Sys2Proof

open Sys2Proof.Machine

/-- An outcome in which the part goes on. -/
def runsOn (o : Host.Outcome State Fault Refusal) : Bool :=
  match o with
  | .next _ => true
  | .fault _ => false
  | .refused _ => false

/-- Commands that run one after another, as long as the part goes on. -/
def runAll : List Instr → State → Host.Outcome State Fault Refusal
  | [], s => .next s
  | c :: cs, s =>
    match exec c s with
    | .next t => runAll cs t
    | .fault f => .fault f
    | .refused r => .refused r

/-! ### The classifier (R11) -/

/-- No two enabled CHANNEL entries have the same key (R11). -/
def KeysDistinct (s : State) : Prop :=
  ∀ c d : Fin 64, (s.channel c).enabled = true → (s.channel d).enabled = true →
    (s.channel c).node = (s.channel d).node → (s.channel c).input = (s.channel d).input → c = d

/-! ### Links between the tables (R25, R44, R69) -/

/-- The source that a kind and an index name is enabled: a channel, or a slot below 16 (R44, R69). -/
abbrev SourceOn (s : State) (kind : SourceKind) (index : Fin 64) : Prop :=
  (kind = .channel ∧ (s.channel index).enabled = true)
  ∨ (kind = .slot ∧ ∃ j : Fin 16, j.val = index.val ∧ (s.slots.get j).enabled = true)

/-- The freeze ring that a rule names, where it names one, is enabled in SNAPSHOT mode (R44). -/
abbrev FreezeRingOn (s : State) (r : Rule) : Prop :=
  ∀ g : Fin 8, r.freezeRing = some g →
    (s.rings.get g).enabled = true ∧ (s.rings.get g).mode = .snapshot

/-- The start slot that a rule names, where it names one, is enabled with trigger GATED (R44). -/
abbrev StartSlotOn (s : State) (r : Rule) : Prop :=
  ∀ j : Fin 16, r.startSlot = some j →
    (s.slots.get j).enabled = true ∧ (s.slots.get j).trigger = .gated

/-- Every enabled slot names an enabled channel; every enabled rule names an enabled source, a freeze
ring enabled in SNAPSHOT mode and a start slot enabled and GATED where it names them; every enabled
ring names an enabled source. -/
def SourcesEnabled (s : State) : Prop :=
  (∀ k : Fin 16, (s.slots.get k).enabled = true → (s.channel (s.slots.get k).channel).enabled = true)
  ∧ (∀ k : Fin 32, (s.rules.get k).enabled = true →
      SourceOn s (s.rules.get k).sourceKind (s.rules.get k).sourceIndex
      ∧ FreezeRingOn s (s.rules.get k) ∧ StartSlotOn s (s.rules.get k))
  ∧ (∀ k : Fin 8, (s.rings.get k).enabled = true →
      SourceOn s (s.rings.get k).sourceKind (s.rings.get k).sourceIndex)

/-- The consistency conditions of a rule (R45). -/
abbrev ConsistentRule (r : Rule) : Prop :=
  (r.criterion = .inside → r.low ≤ r.high)
  ∧ (r.criterion = .outside → r.low ≤ r.high ∧ r.low + r.hyst ≤ r.high - r.hyst)
  ∧ (r.criterion = .step → 0 ≤ r.high)

/-- Every enabled rule meets its consistency conditions (R45). -/
def RulesConsistent (s : State) : Prop :=
  ∀ k : Fin 32, (s.rules.get k).enabled = true → ConsistentRule (s.rules.get k)

/-! ### Slots (R27) and rules (R51) -/

/-- A slot's state fits its enabled flag and trigger, its count is below N, and its partial window holds
samples exactly when the count is not 0, which it is only in ACCUM (R24, R27). -/
def Slot.Sound (x : Slot) : Prop :=
  (x.enabled = false ↔ x.state = .off)
  ∧ (x.enabled = true → x.trigger = .continuous → x.state = .accum)
  ∧ (x.state ≠ .accum → x.count = 0)
  ∧ (x.window = none ↔ x.count = 0)
  ∧ x.count < x.windowLength

/-- Every slot is sound. -/
def SlotsSound (s : State) : Prop := ∀ k : Fin 16, Slot.Sound (s.slots.get k)

/-- An enabled rule is in CLEAR or ACTIVE with run count 0, or in PENDING or LEAVING with a run count of
1 or more (R51); a disabled rule is OFF; the run count is at most 254 and K is 1..255 (R52). -/
def Rule.Sound (r : Rule) : Prop :=
  (r.enabled = false ↔ r.state = .off)
  ∧ (r.runCount = 0 ↔ r.state ≠ .pending ∧ r.state ≠ .leaving)
  ∧ r.runCount ≤ 254 ∧ 1 ≤ r.persistence ∧ r.persistence ≤ 255

/-- Every rule is sound. -/
def RulesSound (s : State) : Prop := ∀ k : Fin 32, Rule.Sound (s.rules.get k)

/-! ### Rings (R69, R73, R81) -/

/-- No word of capture memory lies in the ranges of two enabled rings (R69). -/
def RangesDisjoint (s : State) : Prop :=
  ∀ j k : Fin 8, j ≠ k → (s.rings.get j).enabled = true → (s.rings.get k).enabled = true →
    (s.rings.get j).overlaps (s.rings.get k) = false

/-- The writer of a STREAM ring fits its halves: a half is FILLING exactly when the writer is filling
it, and the half a STALLED writer awaits is FULL or READING (R73, section 4.4). -/
def StreamState.Sound (x : StreamState) : Prop :=
  match x.writer with
  | .off => False
  | .filling h => (x.half h).state = .filling ∧ (x.half h.other).state ≠ .filling
  | .stalled h =>
    ((x.half h).state = .full ∨ (x.half h).state = .reading) ∧ (x.half h.other).state ≠ .filling

/-- A snapshot's pending trigger is present exactly in COUNTDOWN and its capture record exactly in FROZEN
and READING (R81). -/
def SnapshotState.Sound (x : SnapshotState) : Prop :=
  x.state ≠ .off
  ∧ (x.pending ≠ none ↔ x.state = .countdown)
  ∧ (x.record ≠ none ↔ x.state = .frozen ∨ x.state = .reading)

/-- The state groups of a ring fit its enabled flag and mode (R68, R73, R81). -/
def Ring.Sound (r : Ring) : Prop :=
  if r.enabled then
    match r.mode with
    | .stream => StreamState.Sound r.stream ∧ r.snapshot = SnapshotState.reset
    | .snapshot => SnapshotState.Sound r.snapshot ∧ r.stream = StreamState.reset
  else r.stream = StreamState.reset ∧ r.snapshot = SnapshotState.reset

/-- Whether a part of a ring is READING. -/
def partReading (r : Ring) (part : RingPart) : Bool :=
  match part.half with
  | some h => decide ((r.stream.half h).state = .reading)
  | none => decide (r.snapshot.state = .reading)

/-- Every ring is sound, and a part is READING exactly while the engine is SENDING with that part in its
record (R92). -/
def RingsSound (s : State) : Prop :=
  (∀ k : Fin 8, Ring.Sound (s.rings.get k))
  ∧ (∀ (k : Fin 8) (part : RingPart), partReading (s.rings.get k) part = true ↔
      ∃ x, s.readout.engine = .sending x ∧ x.ring = k ∧ x.part = part)

/-- A position in a range: below its length. -/
def SnapshotState.InRange (x : SnapshotState) (length : Nat) : Prop :=
  x.valid ≤ length ∧ x.remaining ≤ length ∧ (x.position = 0 ∨ x.position < length)
  ∧ (∀ c, x.record = some c → c.valid ≤ length ∧ (c.endPosition = 0 ∨ c.endPosition < length))

/-- Every ring's range lies in capture memory, its length is 0 or 128..65,536 by 64, the post count is at
most the length, and a snapshot never holds more valid words than its length (R67, R81). -/
def RangesSound (s : State) : Prop :=
  ∀ k : Fin 8,
    (s.rings.get k).base + (s.rings.get k).length ≤ Config.captureWords
    ∧ (s.rings.get k).length % 64 = 0
    ∧ ((s.rings.get k).length = 0 ∨ 128 ≤ (s.rings.get k).length)
    ∧ ((s.rings.get k).enabled = true → (s.rings.get k).length ≠ 0)
    ∧ (s.rings.get k).postCount ≤ (s.rings.get k).length
    ∧ SnapshotState.InRange (s.rings.get k).snapshot (s.rings.get k).length

/-- How many words each item of a ring's source gives: 2 where the source is a PEAK slot, else 1
(R71). -/
def itemWidth (s : State) (r : Ring) : Nat :=
  match r.source with
  | some (.slot j) => if (s.slots.get j).mode = .peak then 2 else 1
  | _ => 1

/-- Every item in flight to a ring that is enabled, or that may be while its source is, gives the words its
source gives, a mark none (R71); the fill of each half of an enabled ring is at most half the range, whole
items, below half the range while FILLING and not 0 while FULL or READING (R73, R94). -/
def FillsSound (s : State) : Prop :=
  ∀ k : Fin 8,
    ((s.rings.get k).enabled = true ∨ SourceOn s (s.rings.get k).sourceKind (s.rings.get k).sourceIndex →
      ∀ item ∈ (s.rings.get k).inbox,
        item.words.length = 0 ∨ item.words.length = itemWidth s (s.rings.get k))
    ∧ ((s.rings.get k).enabled = true → (s.rings.get k).mode = .stream → ∀ h : HalfId, ∀ x, x = (s.rings.get k).stream.half h →
      x.fill ≤ (s.rings.get k).length / 2
      ∧ x.fill % itemWidth s (s.rings.get k) = 0
      ∧ (x.state = .filling → x.fill < (s.rings.get k).length / 2)
      ∧ (x.state = .full ∨ x.state = .reading → x.fill ≠ 0))

/-- The words of the readout in progress are those of its part (R94, R96, R97). Of a half: from its first
offset on, as many as its fill, at most half the range, in capture memory. Of a snapshot: as many as the
capture record holds valid, at most the range, from position (E - V) mod L on. -/
def ReadoutInRange (s : State) : Prop :=
  ∀ (x : ReadoutRecord) (r : Ring), s.readout.engine = .sending x → r = s.rings.get x.ring →
    x.total ≤ r.length
    ∧ (∀ h, x.part.half = some h →
      x.start = r.base + (if h = .a then 0 else r.length / 2)
      ∧ x.total = (r.stream.half h).fill ∧ x.total ≤ r.length / 2
      ∧ x.start + x.total ≤ Config.captureWords)
    ∧ (x.part = .snapshot → ∃ c, r.snapshot.record = some c ∧ x.total = c.valid
      ∧ (x.start : Int) = ((c.endPosition : Int) - c.valid) % r.length)

/-! ### The event unit (R107, R108, section 6.4) -/

/-- Serials run on by 1 modulo 65,536 from a first serial, and end before the serial counter. -/
def serialsRun : List EventRecord → Nat → Nat → Prop
  | [], first, next => first = next
  | r :: rs, first, next => r.serial = first ∧ serialsRun rs (wrap16 (first + 1)) next

/-- Every SENT record precedes every UNSENT record. -/
def sentFirst : List EventRecord → Prop
  | [] => True
  | r :: rs => (r.sent = .unsent → ∀ x ∈ rs, x.sent = .unsent) ∧ sentFirst rs

/-- The records of the queue carry consecutive serials up to the serial counter, and SENT precedes
UNSENT (R108). -/
def QueueInOrder (s : State) : Prop :=
  s.events.serial < Config.serialModulus
  ∧ (∃ first, first < Config.serialModulus ∧ serialsRun s.events.queue first s.events.serial)
  ∧ sentFirst s.events.queue

/-- The timer runs exactly while delivery is ACTIVE and SENT records wait; SUSPENDED holds no SENT record
and a retry count of 0 (section 6.4, R114, R119). -/
def DeliverySound (s : State) : Prop :=
  (s.events.timer ≠ .stopped ↔ s.events.delivery = .active ∧ sentCount s.events.queue ≠ 0)
  ∧ (s.events.delivery = .suspended → sentCount s.events.queue = 0 ∧ s.events.retry = 0)

/-! ### Queues (R107, R129, R148, R159, R160) -/

/-- The queues keep to their capacities, and MR holds at most one reply per tag (R107, R129, R148,
R153). -/
def QueuesBounded (s : State) : Prop :=
  s.egress.fw.length ≤ Config.fwCapacity
  ∧ s.egress.dt.length ≤ Config.dtCapacity
  ∧ s.egress.ob.length ≤ Config.obCapacity
  ∧ (s.egress.mr.map (·.place)).Nodup
  ∧ s.egress.openFrame.length < Config.reducedFrameRecords
  ∧ s.events.queue.length ≤ Config.eventCapacity
  ∧ s.management.waiting.length ≤ Config.pendingCapacity

/-- FW, DT and MR are empty and no reduced frame is open while the scheduler holds them empty (R160). -/
def HeldEmpty (s : State) : Prop :=
  s.egress.held = true →
    s.egress.fw = [] ∧ s.egress.dt = [] ∧ s.egress.mr = [] ∧ s.egress.openFrame = []

/-- When the scheduler has taken the C-port's last change and holds nothing empty, the event unit has taken
every change too (R174; assumption 26). -/
def EventsTookTheLink (s : State) : Prop :=
  s.egress.held = false → s.egress.cChanges = [] → s.events.linkChanges = []

/-- The hold timer runs exactly while a reduced frame is open (R153). -/
def HoldTimerSound (s : State) : Prop := s.egress.holdTimer ≠ .stopped ↔ s.egress.openFrame ≠ []

/-- GLOBAL's fields are in their ranges (section 7.5). -/
def GlobalInRange (s : State) : Prop :=
  (1 ≤ s.ownNode ∧ s.ownNode ≤ 16)
  ∧ (1 ≤ s.management.global.eventWindow ∧ s.management.global.eventWindow ≤ 16)
  ∧ (1 ≤ s.management.global.retransmitTimeout ∧ s.management.global.retransmitTimeout ≤ 255)
  ∧ (1 ≤ s.management.global.retryLimit ∧ s.management.global.retryLimit ≤ 15)
  ∧ (1 ≤ s.management.global.reducedHold ∧ s.management.global.reducedHold ≤ 64)
  ∧ (1 ≤ s.management.global.dtStreak ∧ s.management.global.dtStreak ≤ 16)

/-- The FW streak is 0 while DT is empty and at most 16, and at most 16 records are SENT (R107, R159). -/
def CountsBounded (s : State) : Prop :=
  (s.egress.dt = [] → s.egress.streak = 0) ∧ s.egress.streak ≤ 16 ∧ sentCount s.events.queue ≤ 16

/-! ### Readouts (R91, R95, R99, R102) -/

/-- The READOUT frames among the frames of DT, in their order. -/
def readoutFrames : List DtFrame → List ReadoutFrame
  | [] => []
  | .readout f :: q => f :: readoutFrames q
  | .reduced _ :: q => readoutFrames q

/-- Frames of a readout that run on from a readout offset to the next offset of its record, each with its
id; LAST is set exactly on a frame whose words end at T, and no frame follows that one. -/
def framesRun (x : ReadoutRecord) : List ReadoutFrame → Nat → Prop
  | [], o => o = x.nextOffset
  | f :: fs, o =>
    (f.id = x.id ∧ f.ring = x.ring ∧ f.part = x.part ∧ f.aborted = false ∧ f.offset = o
      ∧ (f.last = true ↔ x.total ≤ o + f.words.length) ∧ (f.last = true → fs = []))
    ∧ framesRun x fs (o + f.words.length)

/-- The words of a readout lie in capture memory (R94, R96, R97). -/
def ReadoutInMemory (s : State) (x : ReadoutRecord) : Prop :=
  if x.part = .snapshot then
    0 < (s.rings.get x.ring).length
      ∧ (s.rings.get x.ring).base + (s.rings.get x.ring).length ≤ Config.captureWords
  else x.start + x.total ≤ Config.captureWords

/-- How many frames a readout still has to place: one for 48 words left or fewer, and one where the part
has no words at all (R95). -/
def framesToPlace (x : ReadoutRecord) : Nat :=
  if x.lastQueued then 0 else max 1 ((x.total - x.nextOffset + 47) / 48)

/-- Word `k` of the part that a readout reads: of a half, the word `k` after its start (R96); of a
snapshot, the word `k` after its start, round the ring's range (R97). -/
def readoutWord (s : State) (x : ReadoutRecord) (k : Nat) : Int :=
  s.memory.read (if x.part = .snapshot then
      (s.rings.get x.ring).base + (x.start + k) % (s.rings.get x.ring).length
    else x.start + k)

/-- Where DT has `places` free places, the engine with record `x` places `frames` and keeps the record `y`:
as many as it still has to place, until DT is full or 8 of its frames stand in DT; each carries the next 48
words of the part or what is left of it, as they stand in capture memory (R95, R96, R97, R98). -/
def PlacesFrames (s : State) (x y : ReadoutRecord) (places : Nat) (frames : List ReadoutFrame) : Prop :=
  frames.length = min (min (8 - x.framesQueued) places) (framesToPlace x)
  ∧ framesRun y frames x.nextOffset
  ∧ (∀ f ∈ frames, f.words.length = min 48 (x.total - f.offset) ∧ f.gapped = x.gapped
      ∧ f.words = (List.range f.words.length).map fun j => readoutWord s x (f.offset + j))
  ∧ y = { x with
      nextOffset := x.nextOffset + min (48 * frames.length) (x.total - x.nextOffset)
      framesQueued := x.framesQueued + frames.length
      lastQueued := x.lastQueued
        || decide (1 ≤ frames.length ∧ x.total ≤ x.nextOffset + 48 * frames.length) }

/-- The READOUT frames of DT are those of the engine's record: none while it is FREE or its terminating
frame is pending, the terminating frame while it stands in DT, and while SENDING at most 8 frames that
carry the words from words sent to next offset without a hole, the LAST one at their end (R91, R95,
R99, R102, R156). -/
def ReadoutSound (s : State) : Prop :=
  match s.readout.engine with
  | .free => readoutFrames s.egress.dt = []
  | .terminating x =>
    readoutFrames s.egress.dt = if x.pending then [] else [x.frame]
  | .sending x =>
    framesRun x (readoutFrames s.egress.dt) x.wordsSent
    ∧ (readoutFrames s.egress.dt).length = x.framesQueued
    ∧ x.framesQueued ≤ Config.readoutPlaces
    ∧ x.nextOffset ≤ x.total
    ∧ (x.lastQueued = true → x.nextOffset = x.total ∧ x.framesQueued ≠ 0)
    ∧ (x.lastQueued = false → x.nextOffset < x.total ∨ (x.total = 0 ∧ x.framesQueued = 0))

/-! ### Widths (sections 1.3, 1.4, 2.1, 3.1, 4.2, 5.1, 6.2, 8.1, 9.1) -/

/-- A saturating count: at most 4,294,967,295. -/
abbrev CountFits (n : Nat) : Prop := n ≤ 4294967295

/-- An index or time mark: 0..4,294,967,295. -/
abbrev MarkFits (n : Nat) : Prop := n < 4294967296

/-- A signed 32-bit value. -/
abbrev WordFits (v : Int) : Prop := -2147483648 ≤ v ∧ v ≤ 2147483647

/-- A value that a code gives under one format or the other (R2). -/
abbrev CodeValue (v : Int) : Prop := -8388608 ≤ v ∧ v ≤ 16777215

/-- The timebase, the indices, the time marks of the rules, the counts, the gap marks, the serial, the
readout ids and the retry count keep to the widths their chapters give them. -/
def WidthsKept (s : State) : Prop :=
  MarkFits s.timebase
  ∧ (∀ p, CountFits (s.port p).framesGood ∧ CountFits (s.port p).crcErrors
      ∧ CountFits (s.port p).malformed)
  ∧ (∀ n, (s.classifier.nodes.get n).expected < 65536
      ∧ CountFits (s.classifier.nodes.get n).accepted ∧ CountFits (s.classifier.nodes.get n).gaps
      ∧ CountFits (s.classifier.nodes.get n).missing ∧ CountFits (s.classifier.nodes.get n).stale)
  ∧ CountFits s.classifier.staleFrames
  ∧ (∀ c, MarkFits (s.channel c).sampleIndex ∧ (s.channel c).gapMarks ≤ 65535)
  ∧ (∀ k, MarkFits (s.slots.get k).outputIndex ∧ CountFits (s.slots.get k).brokenWindows
      ∧ (s.slots.get k).exponent ≤ 8)
  ∧ (∀ k, CountFits (s.rules.get k).asserts ∧ ∀ t, (s.rules.get k).lastAssert = some t → MarkFits t)
  ∧ (∀ k, CountFits (s.rings.get k).dropped ∧ CountFits (s.rings.get k).lost)
  ∧ (s.readout.nextId < 256 ∧ CountFits s.readout.completed ∧ CountFits s.readout.aborted)
  ∧ (s.events.serial < 65536 ∧ CountFits s.events.pendingLoss ∧ CountFits s.events.lifetimeLoss)
  ∧ (s.events.retry ≤ 16 ∧ (s.events.delivery = .active → s.events.retry ≤ 15))
  ∧ (CountFits s.egress.fwDrops ∧ CountFits s.egress.downDiscards
      ∧ CountFits s.egress.reducedDropped ∧ CountFits s.egress.obDrops)

/-- What an output record carries is of 32 bits (R33). -/
def OutputRecord.Fits (r : OutputRecord) : Prop :=
  MarkFits r.outputIndex ∧ MarkFits r.firstIndex ∧ MarkFits r.time
  ∧ (match r.data with
    | .value v => WordFits v
    | .peak max min => WordFits max ∧ WordFits min)

/-- What an item of a stream carries fits: a sample's value is that of a code (R2, R15, R33). -/
def ItemFits (item : StreamItem) : Prop :=
  match item with
  | .sample v i => CodeValue v ∧ MarkFits i
  | .record r => OutputRecord.Fits r
  | .mark => True

/-- A partial window of `n` samples holds values of codes (R28). -/
def WindowFits (n : Nat) (w : Window) : Prop :=
  n * (-8388608) ≤ w.sum ∧ w.sum ≤ n * 16777215 ∧ CodeValue w.max ∧ CodeValue w.min
  ∧ MarkFits w.firstIndex

/-- The fields of an event record, and of the request for it, fit (R105, section 10.4). -/
def EventFits (subject : Nat) (value : Option Int) (count : Option Nat) (time : Nat) : Prop :=
  subject < 256 ∧ (∀ v, value = some v → WordFits v) ∧ (∀ n, count = some n → CountFits n)
  ∧ MarkFits time

/-- The fields of a READOUT frame fit (section 10.4). -/
def ReadoutFrame.Fits (f : ReadoutFrame) : Prop :=
  f.id < 256 ∧ f.offset < 65536 ∧ f.words.length ≤ 48 ∧ ∀ v ∈ f.words, WordFits v

/-- The readout engine's record fits, and the offset of a frame that it has still to place (R91, R95,
R178). -/
def EngineFits (e : EngineState) : Prop :=
  match e with
  | .free => True
  | .sending x => x.id < 256 ∧ x.wordsSent < 65536 ∧ (x.lastQueued = false → x.nextOffset < 65536)
  | .terminating x => x.id < 256 ∧ x.wordsSent < 65536

/-- What passes between the blocks, what they hold of it, and what waits to be sent, fits the fields that
carry it (sections 1.1, 10.2 to 10.5). -/
def ItemsFit (s : State) : Prop :=
  (∀ c v, (s.channel c).lastValue = some v → CodeValue v)
  ∧ (∀ k, (∀ item ∈ (s.slots.get k).inbox, ItemFits item)
      ∧ ∀ w, (s.slots.get k).window = some w → WindowFits (s.slots.get k).count w)
  ∧ (∀ k, (∀ item ∈ (s.rules.get k).inbox, ItemFits item)
      ∧ WordFits (s.rules.get k).low ∧ WordFits (s.rules.get k).high
      ∧ (s.rules.get k).hyst ≤ 2147483647
      ∧ ∀ v, (s.rules.get k).previous = some v → WordFits v)
  ∧ (∀ k, (∀ item ∈ (s.rings.get k).inbox, ItemFits item)
      ∧ (∀ p, (s.rings.get k).snapshot.pending = some p → MarkFits p.time)
      ∧ ∀ c, (s.rings.get k).snapshot.record = some c →
        MarkFits c.triggerTime ∧ MarkFits c.freezeTime)
  ∧ (∀ c ∈ s.memory.cells, WordFits c.2)
  ∧ EngineFits s.readout.engine
  ∧ (∀ q ∈ s.events.requests, EventFits q.subject q.value q.count q.time)
  ∧ (∀ r ∈ s.events.queue, r.serial < 65536 ∧ EventFits r.subject r.value r.count r.time)
  ∧ (∀ c ∈ s.egress.candidates, c.seq < 65536 ∧ 1 ≤ c.entries.length ∧ c.entries.length ≤ 32
      ∧ ∀ e ∈ c.entries, e.input < 256 ∧ e.code < 16777216)
  ∧ (∀ r ∈ s.egress.records, OutputRecord.Fits r) ∧ (∀ r ∈ s.egress.openFrame, OutputRecord.Fits r)
  ∧ (∀ records, DtFrame.reduced records ∈ s.egress.dt →
      records.length ≤ 12 ∧ ∀ r ∈ records, OutputRecord.Fits r)
  ∧ (∀ f, DtFrame.readout f ∈ s.egress.dt → ReadoutFrame.Fits f)
  ∧ (∀ x ∈ s.egress.mr, x.reply.results.length ≤ 68)
  ∧ (∀ tag x, s.management.cache.get tag = some x → x.reply.results.length ≤ 68)

/-! ### Ports (R164, R165) -/

/-- A port's heard flag is set exactly at train count 8, which it has in UP; its transmitter sends and is
paused only in UP (R164, R166, R168). -/
def Port.Sound (x : Port) : Prop :=
  x.trainCount ≤ Config.trainTarget
  ∧ (x.heard = true ↔ x.trainCount = Config.trainTarget)
  ∧ (x.link = .up → x.trainCount = Config.trainTarget)
  ∧ (x.link ≠ .up → x.sending = none ∧ x.paused = false)

/-- Both ports are sound, and they are DOWN exactly during initialisation (R164, R165). -/
def PortsSound (s : State) : Prop :=
  Port.Sound s.fPort ∧ Port.Sound s.cPort
  ∧ (s.phase = .initialising ↔ s.fPort.link = .down)
  ∧ (s.phase = .initialising ↔ s.cPort.link = .down)

/-! ### Initialisation (R165) -/

/-- While initialisation runs, every block stands at its hard-reset values; only the timebase, which no
block reads then (R3), runs on. -/
def InitialisingAtReset (s : State) : Prop :=
  s.phase = .initialising → s = { s.hardReset s.straps with timebase := s.timebase }

/-! ### What a stream consumer is given (R16, R20, R34) -/

/-- What is in flight to a consumer with a source after an event in which only channels offer: what was in
flight to it, unless the consumer is not enabled and names a channel, so that it has passed by; then what
the channel it names gave (R16, R25). -/
def afterChannels (enabled : Bool) (src : Option Source) (inbox : List StreamItem)
    (given : Fin 64 → List StreamItem) : List StreamItem :=
  match src with
  | some (.channel c) => (if enabled = true then inbox else []) ++ given c
  | some (.slot _) => inbox
  | none => inbox

/-- The same after an event in which slot `k` offers one item (R34, R44, R69). -/
def afterSlot (enabled : Bool) (src : Option Source) (inbox : List StreamItem) (k : Fin 16)
    (item : StreamItem) : List StreamItem :=
  if src = some (.slot k) then (if enabled = true then inbox else []) ++ [item] else inbox

/-- The consumers of channels have been offered what the channels gave: every slot, rule and ring is as it
was, but for what is in flight to it. -/
def ChannelsGave (s t : State) (given : Fin 64 → List StreamItem) : Prop :=
  (∀ k, t.slots.get k = { s.slots.get k with
      inbox := afterChannels (s.slots.get k).enabled (some (.channel (s.slots.get k).channel))
        (s.slots.get k).inbox given })
  ∧ (∀ k, t.rules.get k = { s.rules.get k with
      inbox := afterChannels (s.rules.get k).enabled (s.rules.get k).source
        (s.rules.get k).inbox given })
  ∧ (∀ k, t.rings.get k = { s.rings.get k with
      inbox := afterChannels (s.rings.get k).enabled (s.rings.get k).source
        (s.rings.get k).inbox given })

/-- The consumers of slot `k` have been offered one item of its output stream: every rule and ring is as
it was, but for what is in flight to it. -/
def SlotGave (s t : State) (k : Fin 16) (item : StreamItem) : Prop :=
  (∀ j, t.rules.get j = { s.rules.get j with
      inbox := afterSlot (s.rules.get j).enabled (s.rules.get j).source (s.rules.get j).inbox k item })
  ∧ (∀ j, t.rings.get j = { s.rings.get j with
      inbox := afterSlot (s.rings.get j).enabled (s.rings.get j).source (s.rings.get j).inbox k item })

/-- Nothing that a source offered is in flight any more to a consumer of it that is not enabled, and
nothing else has changed (R15, R71). -/
def OffersGone (s t : State) (src : Source) : Prop :=
  (∀ k, t.slots.get k = { s.slots.get k with
      inbox := if (s.slots.get k).enabled = false ∧ src = .channel (s.slots.get k).channel then []
        else (s.slots.get k).inbox })
  ∧ (∀ k, t.rules.get k = { s.rules.get k with
      inbox := if (s.rules.get k).enabled = false ∧ (s.rules.get k).source = some src then []
        else (s.rules.get k).inbox })
  ∧ (∀ k, t.rings.get k = { s.rings.get k with
      inbox := if (s.rings.get k).enabled = false ∧ (s.rings.get k).source = some src then []
        else (s.rings.get k).inbox })
  ∧ t = { s with slots := t.slots, rules := t.rules, rings := t.rings }

/-! ### SAMPLE frames (R1, R6, R14, R18) -/

/-- A SAMPLE frame passes the check of R1: `f` is what it carries, and `n` the place of its source node
in the NODE table. -/
def PassesCheck (s : State) (bytes : List Byte) (f : SampleFrame) (n : Fin 30) : Prop :=
  readSampleFrame bytes = some f ∧ nodeIndex (frameSource bytes) = some n
    ∧ frameSource bytes ≠ s.ownNode

/-- The distance (q − expected sequence) mod 65,536 of a frame from a node (R6). -/
def frameDistance (e : NodeEntry) (q : Nat) : Int := ((q : Int) - e.expected) % 65536

/-- A frame of a node in TRACKING at a distance of 32,768 or more is stale (R6). -/
def IsStaleFrame (e : NodeEntry) (q : Nat) : Prop :=
  e.state = .tracking ∧ 32768 ≤ frameDistance e q

/-- A frame of a node in TRACKING at a distance other than 0 reveals a gap (R6). -/
def RevealsGap (e : NodeEntry) (q : Nat) : Prop := e.state = .tracking ∧ frameDistance e q ≠ 0

/-- The entries of a frame that an enabled channel takes, in the order of the frame (R14). -/
def takenBy (s : State) (node : Nat) (c : Fin 64) (es : List SampleEntry) : List SampleEntry :=
  es.filter fun e => decide (s.matchChannel node e.input = some c)

/-- The samples a channel makes of the entries it takes, numbered from an index (R2, R14, R15). -/
def samplesFrom (f : Format) : Nat → List SampleEntry → List StreamItem
  | _, [] => []
  | i, e :: es => .sample (sampleValue f e.code) i :: samplesFrom f ((i + 1) % 4294967296) es

/-- Whether an entry that stands behind `before` in its frame is kept (R17, R18). -/
def entryKept (s : State) (node : Nat) (before : List SampleEntry) (e : SampleEntry) : Bool :=
  match s.matchChannel node e.input with
  | some c =>
    match (s.channel c).policy with
    | .pass => true
    | .drop => false
    | .thin =>
      decide (((s.channel c).sampleIndex + (takenBy s node c before).length) % 4294967296
        % (s.channel c).divisor = 0)
  | none => decide (s.management.global.unknownPolicy = .pass)

/-- The entries of a frame that are kept, in their order (R19). -/
def entriesKept (s : State) (node : Nat) (before : List SampleEntry) :
    List SampleEntry → List SampleEntry
  | [] => []
  | e :: es =>
    if entryKept s node before e then e :: entriesKept s node (before ++ [e]) es
    else entriesKept s node (before ++ [e]) es

/-! ### Rules (R47, R49, R51) -/

/-- A rule takes the value `v` with index `i` from an item (R47). -/
def TakesValue (r : Rule) (item : StreamItem) (v : Int) (i : Nat) : Prop :=
  item = .sample v i
  ∨ ∃ o : OutputRecord, item = .record o ∧ i = o.outputIndex
      ∧ (o.data = .value v ∨ ∃ max min, o.data = .peak max min
          ∧ v = if r.peakPart = .max then max else min)

/-- The assert condition of each criterion (R49). -/
def Asserts (r : Rule) (v previous : Int) : Prop :=
  match r.criterion with
  | .above => v > r.high
  | .below => v < r.low
  | .inside => r.low ≤ v ∧ v ≤ r.high
  | .outside => v < r.low ∨ v > r.high
  | .step => |v - previous| > r.high

/-- The release condition of each criterion (R49). -/
def Releases (r : Rule) (v previous : Int) : Prop :=
  match r.criterion with
  | .above => v ≤ r.high - r.hyst
  | .below => v ≥ r.low + r.hyst
  | .inside => v < r.low - r.hyst ∨ v > r.high + r.hyst
  | .outside => r.low + r.hyst ≤ v ∧ v ≤ r.high - r.hyst
  | .step => |v - previous| ≤ r.high - r.hyst

/-- The condition a rule evaluates in its state (R49). -/
def Qualifies (r : Rule) (v previous : Int) : Prop :=
  if r.state = .clear ∨ r.state = .pending then Asserts r v previous else Releases r v previous

/-- The state and run count after a value that qualifies or does not (the table of R51). -/
def watchStep (state : RuleState) (count persistence : Nat) (qualifies : Prop) [Decidable qualifies] :
    RuleState × Nat :=
  if state = .clear ∨ state = .pending then
    if qualifies then
      if count + 1 < persistence then (.pending, count + 1) else (.active, 0)
    else (.clear, 0)
  else
    if qualifies then
      if count + 1 < persistence then (.leaving, count + 1) else (.clear, 0)
    else (.active, 0)

/-! ### Rings (R75, R85, R90) -/

/-- Whether closing half `h` overwrites the other half (R75). -/
abbrev ClosingOverwrites (r : Ring) (h : HalfId) : Prop :=
  (r.stream.half h.other).state = .full ∧ r.overflow = .overwrite

/-- `y` is the ring `r` with half `h` closed, by the table of R75. -/
def HalfClosed (r y : Ring) (h : HalfId) : Prop :=
  y = { r with stream := y.stream, lost := y.lost }
  ∧ y.stream.half h = { r.stream.half h with state := .full }
  ∧ (if (r.stream.half h.other).state = .empty ∨ ClosingOverwrites r h then
      y.stream.half h.other
          = { state := .filling, fill := 0, gapped := r.stream.heldMark, readOnce := false }
        ∧ y.stream.writer = .filling h.other ∧ y.stream.heldMark = false
    else
      y.stream.half h.other = r.stream.half h.other
        ∧ y.stream.writer = .stalled h.other ∧ y.stream.heldMark = r.stream.heldMark)
  ∧ y.lost = (if ClosingOverwrites r h then
      min (r.lost + (r.stream.half h.other).fill) 4294967295 else r.lost)

/-- The subject of a half's records: ring × 2 + half (R90). -/
def halfSubject (k : Fin 8) (h : HalfId) : Nat := k.val * 2 + (if h = .a then 0 else 1)

/-- The requests a ring makes when it closes half `h` (R75, R89, R90). -/
def closingRequests (k : Fin 8) (r : Ring) (h : HalfId) (now : Nat) : List EventRequest :=
  if r.notify then
    { requester := .ring k, kind := .halfFull, subject := halfSubject k h, channel := none,
      value := none, count := some (r.stream.half h).fill, time := now }
    :: (if ClosingOverwrites r h then
        [{ requester := .ring k, kind := .halfLost, subject := halfSubject k h.other, channel := none,
           value := none, count := some (r.stream.half h.other).fill, time := now }]
      else [])
  else []

/-- `y` is the ring `r` gone FROZEN at `now` with a pending trigger (R85). -/
def WentFrozen (r y : Ring) (p : PendingTrigger) (now : Nat) : Prop :=
  y = { r with snapshot := { r.snapshot with
    state := .frozen
    remaining := 0
    pending := none
    record := some { trigger := p.trigger, triggerTime := p.time, freezeTime := now,
                     valid := r.snapshot.valid, endPosition := r.snapshot.position } } }

/-- The request a ring makes when it goes FROZEN (R89, R90). -/
def frozenRequests (k : Fin 8) (r : Ring) (t : Trigger) (now : Nat) : List EventRequest :=
  if r.notify then
    [{ requester := .ring k, kind := .ringFrozen, subject := k.val, channel := none,
       value := some (match t with
         | .rule j => (j.val : Int)
         | .manual => -1),
       count := some r.snapshot.valid, time := now }]
  else []

/-! ### Frames and requests (R126, R128, R129) -/

/-- A frame that passes the three checks of R171. -/
def Accepted (bytes : List Byte) : Prop :=
  crcGood bytes = true ∧ lengthGood bytes = true ∧ kindGood bytes = true

/-- The code of the request each request command executes (section 10.3); none for the other commands. -/
def requestCode : Instr → Option Nat
  | .ident => some 0x01
  | .readEntry => some 0x02
  | .writeEntry => some 0x03
  | .enable => some 0x04
  | .disable => some 0x05
  | .readStatus => some 0x06
  | .clearCounters => some 0x07
  | .setTime => some 0x08
  | .readRing => some 0x09
  | .abortRead => some 0x0A
  | .releaseHalf => some 0x0B
  | .flushRing => some 0x0C
  | .freezeRing => some 0x0D
  | .rearmRing => some 0x0E
  | .startSlot => some 0x0F
  | .eventAck => some 0x10
  | .eventResync => some 0x11
  | .restart => some 0x12
  | _ => none

/-- The request `q` is being executed, has the code `code` and a tag in range, and is no repeat: it
passes stages 1 to 4 of R128. -/
def Executes (s : State) (q : Request) (code : Nat) : Prop :=
  s.currentRequest = some q ∧ q.code.toNat = code ∧ q.tag.toNat < 4 ∧ s.cachedFor q = none

/-- The event unit has taken every change of the C-port and has a record queued (R114, R174). -/
def EventsLead (s : State) : Prop := s.events.linkChanges = [] ∧ s.events.queue ≠ []

/-- EV has something to send: delivery is ACTIVE, an UNSENT record waits and the window has room (R115). -/
def EvReady (s : State) : Prop :=
  s.events.delivery = .active ∧ (∃ r ∈ s.events.queue, r.sent = .unsent)
  ∧ (s.events.queue.filter (fun r => decide (r.sent = .sent))).length
      < s.management.global.eventWindow

/-- The state after the reply to an executed request: cached, placed in MR, and the next request taken
(R129, R130, R131). -/
def answered (s : State) (q : Request) (status : Status) (results : List Byte) : State :=
  (s.cacheAndPlace q status results).finishRequest

/-- The state after a reply that is only placed: the request was not executed (R128 stages 2, 3, 5). -/
def repliedOnly (s : State) (q : Request) (r : Reply) : State :=
  (s.placeReply (tagPlace q.tag) r).finishRequest

/-- A reply without results. -/
def bareReply (q : Request) (status : Status) : Reply := ⟨q.tag, q.number, q.code, status, []⟩

/-! ### Requests that several blocks take part in (R140, R141, R142, R145) -/

/-- The blocks that take a share of the request with a code: those that own what READ_STATUS reports and
CLEAR_COUNTERS zeroes (R140, R142), and those that take a reset before the event unit's and the reply, the
capture unit with the readout engine and the egress scheduler in one event (R145; assumption 25). -/
def takesPart (code : Nat) (b : Block) : Prop :=
  if code = 0x06 ∨ code = 0x07 then
    b = .fPort ∨ b = .cPort ∨ b = .egress ∨ b = .events ∨ b = .classifier ∨ b = .readout
  else if code = 0x12 then
    b = .classifier ∨ b = .reduction ∨ b = .watch ∨ b = .capture ∨ b = .fPort ∨ b = .cPort
  else False

/-- Shares are taken only in a request that several blocks take part in, by those blocks, and by each at
most once (R141, R142, R145). -/
def SharesSound (s : State) : Prop :=
  s.management.shares.taken.Nodup
  ∧ (s.management.shares.taken ≠ [] → ∃ q code, Executes s q code
      ∧ argumentLengthGood code q.args = true ∧ ∀ b ∈ s.management.shares.taken, takesPart code b)

/-- The state `t`, in which the block `b` has done its share, with that share noted and one more free
choice made. -/
def shareTaken (t : State) (b : Block) : State :=
  { t with
    choices := t.choices + 1
    management := { t.management with
      shares := { t.management.shares with taken := t.management.shares.taken ++ [b] } } }

/-- The values that a block gives READ_STATUS join those given before (R140). -/
def withReading (s : State) (b : Block) (x : Readings) : Readings :=
  match b with
  | .fPort => { x with fPort := {
      framesGood := s.fPort.framesGood, crcErrors := s.fPort.crcErrors
      malformed := s.fPort.malformed, link := s.fPort.link } }
  | .cPort => { x with cPort := {
      framesGood := s.cPort.framesGood, crcErrors := s.cPort.crcErrors
      malformed := s.cPort.malformed, link := s.cPort.link } }
  | .egress => { x with egress := {
      fwDrops := s.egress.fwDrops, downDiscards := s.egress.downDiscards
      reducedDropped := s.egress.reducedDropped, obDrops := s.egress.obDrops
      fw := s.egress.fw.length, dt := s.egress.dt.length, mr := s.egress.mr.length
      ob := s.egress.ob.length } }
  | .events => { x with events := {
      lifetimeLoss := s.events.lifetimeLoss, records := s.events.queue.length
      sent := (s.events.queue.filter fun r => decide (r.sent = .sent)).length
      delivery := s.events.delivery, retry := s.events.retry } }
  | .classifier => { x with classifier := s.classifier.staleFrames }
  | .readout => { x with readout := {
      completed := s.readout.completed, aborted := s.readout.aborted
      inDt := (readoutFrames s.egress.dt).length
      state := match s.readout.engine with
        | .free => 0
        | .sending _ => 1
        | .terminating _ => 2
      id := match s.readout.engine with
        | .free => 0
        | .sending y => y.id
        | .terminating y => y.id } }
  | .reduction => x
  | .watch => x
  | .capture => x

/-- The values that every owning block gives at one moment (R140). -/
def readingsNow (s : State) (x : Readings) : Readings :=
  withReading s .fPort (withReading s .cPort (withReading s .egress (withReading s .events
    (withReading s .classifier (withReading s .readout x)))))

/-- The 68 result bytes of READ_STATUS (section 10.3). -/
def statusBytes (x : Readings) : List Byte :=
  bytes4 x.fPort.framesGood ++ bytes4 x.fPort.crcErrors ++ bytes4 x.fPort.malformed
    ++ bytes4 x.cPort.framesGood ++ bytes4 x.cPort.crcErrors ++ bytes4 x.cPort.malformed
    ++ bytes4 x.egress.fwDrops ++ bytes4 x.egress.downDiscards ++ bytes4 x.egress.reducedDropped
    ++ bytes4 x.egress.obDrops ++ bytes4 x.events.lifetimeLoss ++ bytes4 x.classifier
    ++ bytes4 x.readout.completed ++ bytes4 x.readout.aborted
    ++ [byteOf x.egress.fw, byteOf x.egress.dt, byteOf x.egress.mr, byteOf x.egress.ob,
      byteOf x.readout.inDt, byteOf x.events.records, byteOf x.events.sent,
      (match x.events.delivery with
        | .active => 0
        | .failed => 1
        | .suspended => 2),
      byteOf x.events.retry, byteOf x.readout.state, byteOf x.readout.id,
      (match x.fPort.link with
        | .down => 0
        | .training => 1
        | .up => 2)]

/-- `t` is `s` with the counts of one block zeroed (R142). -/
def CountsCleared (s t : State) (b : Block) : Prop :=
  match b with
  | .fPort => t = { s with fPort := { s.fPort with framesGood := 0, crcErrors := 0, malformed := 0 } }
  | .cPort => t = { s with cPort := { s.cPort with framesGood := 0, crcErrors := 0, malformed := 0 } }
  | .egress => t = { s with egress := { s.egress with
      fwDrops := 0, downDiscards := 0, reducedDropped := 0, obDrops := 0 } }
  | .events => t = { s with events := { s.events with lifetimeLoss := 0 } }
  | .classifier =>
    (∀ n, t.classifier.nodes.get n = { s.classifier.nodes.get n with
      accepted := 0, gaps := 0, missing := 0, stale := 0 })
    ∧ t = { s with classifier := { s.classifier with
        nodes := t.classifier.nodes, staleFrames := 0 } }
  | .readout => t = { s with readout := { s.readout with completed := 0, aborted := 0 } }
  | .reduction => t = s
  | .watch => t = s
  | .capture => t = s

/-- The classifier of `t` is that of `s` after RESTART (R5, R8, R10). -/
def ClassifierRestarted (s t : State) : Prop :=
  (∀ n, t.classifier.nodes.get n = ⟨.unseen, 0, 0, 0, 0, 0⟩)
  ∧ (∀ c, t.channel c = { s.channel c with sampleIndex := 0, lastValue := none, gapMarks := 0 })
  ∧ t.classifier = { s.classifier with
      nodes := t.classifier.nodes, channels := t.classifier.channels, staleFrames := 0 }

/-- The slots of `t` are those of `s` after RESTART (R24). -/
def SlotsRestarted (s t : State) : Prop :=
  ∀ k, t.slots.get k = { s.slots.get k with
    state := if (s.slots.get k).enabled = false then .off
      else if (s.slots.get k).trigger = .continuous then .accum else .idle
    count := 0
    outputIndex := 0
    brokenWindows := 0
    window := none
    afterGap := false }

/-- The rules of `t` are those of `s` after RESTART (R43). -/
def RulesRestarted (s t : State) : Prop :=
  ∀ k, t.rules.get k = { s.rules.get k with
    state := if (s.rules.get k).enabled = true then .clear else .off
    runCount := 0
    previous := none
    asserts := 0
    lastAssert := none }

/-- The rings of `t` are those of `s` after RESTART (R68). -/
def RingsRestarted (s t : State) : Prop :=
  ∀ k, t.rings.get k = { s.rings.get k with
    dropped := 0
    lost := 0
    stream := if (s.rings.get k).enabled = true ∧ (s.rings.get k).mode = .stream then
        ⟨.filling .a, ⟨.filling, 0, false, false⟩, ⟨.empty, 0, false, false⟩, false⟩
      else ⟨.off, ⟨.empty, 0, false, false⟩, ⟨.empty, 0, false, false⟩, false⟩
    snapshot := ⟨if (s.rings.get k).enabled = true ∧ (s.rings.get k).mode = .snapshot then .run
      else .off, 0, 0, 0, false, none, none⟩ }

/-- The scheduler after RESTART (R148, R149): what is in flight to it stays in flight (R146). -/
def egressRestarted (e : Egress) : Egress :=
  { e with
    fw := [], dt := [], mr := [], ob := [], openFrame := [], holdTimer := .stopped, streak := 0
    fwDrops := 0, downDiscards := 0, reducedDropped := 0, obDrops := 0 }

/-- The event unit after RESTART, with the C-port UP or not: STARTED(RESTART) stands alone in its queue
(R112, R113, R114). -/
def eventsRestarted (e : EventUnit) (link : LinkState) : EventUnit :=
  { e with
    queue := [{ serial := 0, kind := .started, subject := 1, channel := none, value := none,
                count := none, time := 0, sent := .unsent }]
    serial := 1
    pendingLoss := 0
    lifetimeLoss := 0
    delivery := if link = .up then .active else .suspended
    retry := 0
    timer := .stopped }

/-- `t` is `s` with one block's share of RESTART taken (R104, R113, R145). -/
def BlockRestarted (s t : State) (b : Block) : Prop :=
  match b with
  | .classifier => ClassifierRestarted s t ∧ t = { s with classifier := t.classifier }
  | .reduction => SlotsRestarted s t ∧ t = { s with slots := t.slots }
  | .watch => RulesRestarted s t ∧ t = { s with rules := t.rules }
  | .capture =>
    RingsRestarted s t
    ∧ t = { s with
        rings := t.rings
        readout := { s.readout with engine := .free, completed := 0, aborted := 0 }
        egress := egressRestarted s.egress
        fPort := { s.fPort with occupancy := s.fPort.occupancy ++ [.removed 0] }
        cPort := { s.cPort with occupancy := s.cPort.occupancy ++ [.removed 0] } }
  | .events => t = { s with timebase := 0, events := eventsRestarted s.events s.cPort.link }
  | .fPort => t = { s with fPort := { s.fPort with framesGood := 0, crcErrors := 0, malformed := 0 } }
  | .cPort => t = { s with cPort := { s.cPort with framesGood := 0, crcErrors := 0, malformed := 0 } }
  | .readout => t = s
  | .egress => t = s

/-! ### Entry records, byte by byte (section 10.5, R179) -/

/-- Byte `i` is a number. -/
def AtByte (bs : List Byte) (i n : Nat) : Prop := byteAt bs i = n % 256

/-- Byte `i` is a flag: 0 off, 1 on. -/
def AtFlag (bs : List Byte) (i : Nat) (b : Bool) : Prop := byteAt bs i = if b = true then 1 else 0

/-- The two bytes from `i` are an unsigned number. -/
def At2 (bs : List Byte) (i n : Nat) : Prop := read2 bs i = n % 65536

/-- The four bytes from `i` are an unsigned number. -/
def At4 (bs : List Byte) (i n : Nat) : Prop := read4 bs i = n % 4294967296

/-- The four bytes from `i` are a signed number, two's complement. -/
def AtSigned (bs : List Byte) (i : Nat) (v : Int) : Prop := (read4 bs i : Int) = v % 4294967296

/-- The five bytes from `i` are an optional value: its presence byte, then the value, 0 when absent. -/
def AtOptional (bs : List Byte) (i : Nat) (x : Option Int) : Prop :=
  AtByte bs i (if x = none then 0 else 1) ∧ AtSigned bs (i + 1) (x.getD 0)

/-- Byte `i` is the index of an entry, 255 when absent. -/
def AtIndex {n : Nat} (bs : List Byte) (i : Nat) (x : Option (Fin n)) : Prop :=
  byteAt bs i = match x with
    | some j => j.val % 256
    | none => 255

/-- Byte `i` is a trigger: 0..31 a rule, 255 MANUAL. -/
def AtTrigger (bs : List Byte) (i : Nat) (t : Trigger) : Prop :=
  byteAt bs i = match t with
    | .rule k => k.val
    | .manual => 255

/-- The bytes from `i` up to `j` are 0. -/
def AllZero (bs : List Byte) (i j : Nat) : Prop := ∀ o, i ≤ o → o < j → byteAt bs o = 0

/-- Bytes `i` and `i + 1` name a source (section 10.5, RULE and RING). -/
def AtSource (bs : List Byte) (i : Nat) (kind : SourceKind) (index : Fin 64) : Prop :=
  AtByte bs i (match kind with
    | .channel => 0
    | .slot => 1)
  ∧ AtByte bs (i + 1) index.val

/-- The CHANNEL record. -/
def ChannelLayout (x : Channel) (bs : List Byte) : Prop :=
  bs.length = 17 ∧ AtFlag bs 0 x.enabled ∧ AtByte bs 1 x.node ∧ AtByte bs 2 x.input
  ∧ AtByte bs 3 (match x.format with
    | .signed => 0
    | .unsigned => 1)
  ∧ AtByte bs 4 (match x.policy with
    | .pass => 0
    | .thin => 1
    | .drop => 2)
  ∧ AtByte bs 5 x.divisor ∧ At4 bs 6 x.sampleIndex ∧ AtOptional bs 10 x.lastValue
  ∧ At2 bs 15 x.gapMarks

/-- The NODE record. -/
def NodeLayout (x : NodeEntry) (bs : List Byte) : Prop :=
  bs.length = 19
  ∧ AtByte bs 0 (match x.state with
    | .unseen => 0
    | .tracking => 1)
  ∧ At2 bs 1 x.expected ∧ At4 bs 3 x.accepted ∧ At4 bs 7 x.gaps ∧ At4 bs 11 x.missing
  ∧ At4 bs 15 x.stale

/-- The SLOT record. -/
def SlotLayout (x : Slot) (bs : List Byte) : Prop :=
  bs.length = 17 ∧ AtFlag bs 0 x.enabled ∧ AtByte bs 1 x.channel.val
  ∧ AtByte bs 2 (match x.mode with
    | .mean => 0
    | .enhance => 1
    | .peak => 2)
  ∧ AtByte bs 3 x.exponent
  ∧ AtByte bs 4 (match x.trigger with
    | .continuous => 0
    | .gated => 1)
  ∧ AtFlag bs 5 x.toEgress ∧ AtFlag bs 6 x.notifyBroken
  ∧ AtByte bs 7 (match x.state with
    | .off => 0
    | .idle => 1
    | .accum => 2)
  ∧ AtByte bs 8 x.count ∧ At4 bs 9 x.outputIndex ∧ At4 bs 13 x.brokenWindows

/-- The RULE record. -/
def RuleLayout (x : Rule) (bs : List Byte) : Prop :=
  bs.length = 38 ∧ AtFlag bs 0 x.enabled ∧ AtSource bs 1 x.sourceKind x.sourceIndex
  ∧ AtByte bs 3 (match x.peakPart with
    | .max => 0
    | .min => 1)
  ∧ AtByte bs 4 (match x.criterion with
    | .above => 0
    | .below => 1
    | .inside => 2
    | .outside => 3
    | .step => 4)
  ∧ AtSigned bs 5 x.low ∧ AtSigned bs 9 x.high ∧ At4 bs 13 x.hyst ∧ AtByte bs 17 x.persistence
  ∧ AtFlag bs 18 x.eventOnAssert ∧ AtFlag bs 19 x.eventOnRelease
  ∧ AtIndex bs 20 x.freezeRing ∧ AtIndex bs 21 x.startSlot
  ∧ AtByte bs 22 (match x.state with
    | .off => 0
    | .clear => 1
    | .pending => 2
    | .active => 3
    | .leaving => 4)
  ∧ AtByte bs 23 x.runCount ∧ AtOptional bs 24 x.previous ∧ At4 bs 29 x.asserts
  ∧ AtOptional bs 33 (x.lastAssert.map Int.ofNat)

/-- One half of a ring, in the four bytes from `i`. -/
def HalfLayout (x : Half) (bs : List Byte) (i : Nat) : Prop :=
  AtByte bs i (match x.state with
    | .empty => 0
    | .filling => 1
    | .full => 2
    | .reading => 3)
  ∧ At2 bs (i + 1) x.fill
  ∧ AtByte bs (i + 3) ((if x.gapped = true then 1 else 0) + (if x.readOnce = true then 2 else 0))

/-- The STREAM state of a ring, in bytes 24 to 33. -/
def StreamLayout (x : StreamState) (bs : List Byte) : Prop :=
  AtByte bs 24 (match x.writer with
    | .off => 0
    | .filling .a => 1
    | .filling .b => 2
    | .stalled .a => 3
    | .stalled .b => 4)
  ∧ HalfLayout x.halfA bs 25 ∧ HalfLayout x.halfB bs 29 ∧ AtFlag bs 33 x.heldMark

/-- The SNAPSHOT state of a ring, in bytes 34 to 67. -/
def SnapshotLayout (x : SnapshotState) (bs : List Byte) : Prop :=
  AtByte bs 34 (match x.state with
    | .off => 0
    | .run => 1
    | .countdown => 2
    | .frozen => 3
    | .reading => 4)
  ∧ At2 bs 35 x.position ∧ At4 bs 37 x.valid ∧ At4 bs 41 x.remaining ∧ AtFlag bs 45 x.gapped
  ∧ (x.pending = none → AllZero bs 46 52)
  ∧ (∀ p, x.pending = some p → AtByte bs 46 1 ∧ AtTrigger bs 47 p.trigger ∧ At4 bs 48 p.time)
  ∧ (x.record = none → AllZero bs 52 68)
  ∧ (∀ c, x.record = some c → AtByte bs 52 1 ∧ AtTrigger bs 53 c.trigger ∧ At4 bs 54 c.triggerTime
      ∧ At4 bs 58 c.freezeTime ∧ At4 bs 62 c.valid ∧ At2 bs 66 c.endPosition)

/-- The RING record: the group of the mode the ring is not in reads as zeros. -/
def RingLayout (x : Ring) (bs : List Byte) : Prop :=
  bs.length = 68 ∧ AtFlag bs 0 x.enabled ∧ At2 bs 1 x.base ∧ At4 bs 3 x.length
  ∧ AtByte bs 7 (match x.mode with
    | .stream => 0
    | .snapshot => 1)
  ∧ AtSource bs 8 x.sourceKind x.sourceIndex
  ∧ AtByte bs 10 (match x.overflow with
    | .stall => 0
    | .overwrite => 1)
  ∧ At4 bs 11 x.postCount ∧ AtFlag bs 15 x.notify ∧ At4 bs 16 x.dropped ∧ At4 bs 20 x.lost
  ∧ (x.mode = .stream → StreamLayout x.stream bs ∧ AllZero bs 34 68)
  ∧ (x.mode = .snapshot → AllZero bs 24 34 ∧ SnapshotLayout x.snapshot bs)

/-- The GLOBAL record. -/
def GlobalLayout (x : Global) (bs : List Byte) : Prop :=
  bs.length = 7 ∧ AtByte bs 0 x.nodeId
  ∧ AtByte bs 1 (match x.unknownPolicy with
    | .pass => 0
    | .drop => 1)
  ∧ AtByte bs 2 x.eventWindow ∧ AtByte bs 3 x.retransmitTimeout ∧ AtByte bs 4 x.retryLimit
  ∧ AtByte bs 5 x.reducedHold ∧ AtByte bs 6 x.dtStreak

/-! ### Writes of entries: the values that pass, and the entry they leave (R134, R135, R179)

Field `k` is named by bit `k` of the mask. -/

/-- The named values of a CHANNEL write are in their ranges (R9). -/
def ChannelValuesGood (mask : Nat) (v : List Byte) : Prop :=
  (mask.testBit 0 = true → 1 ≤ byteAt v 1 ∧ byteAt v 1 ≤ 30)
  ∧ (mask.testBit 1 = true → byteAt v 2 ≤ 15)
  ∧ (mask.testBit 2 = true → byteAt v 3 ≤ 1)
  ∧ (mask.testBit 3 = true → byteAt v 4 ≤ 2)
  ∧ (mask.testBit 4 = true → 2 ≤ byteAt v 5)

/-- A CHANNEL entry with the named fields taken from their bytes. -/
def channelWritten (x : Channel) (mask : Nat) (v : List Byte) : Channel :=
  { x with
    node := if mask.testBit 0 = true then byteAt v 1 else x.node
    input := if mask.testBit 1 = true then byteAt v 2 else x.input
    format := if mask.testBit 2 = true then (if byteAt v 3 = 0 then .signed else .unsigned)
      else x.format
    policy := if mask.testBit 3 = true then
        (if byteAt v 4 = 0 then .pass else if byteAt v 4 = 1 then .thin else .drop)
      else x.policy
    divisor := if mask.testBit 4 = true then byteAt v 5 else x.divisor }

/-- The named values of a SLOT write are in their ranges (R23). -/
def SlotValuesGood (mask : Nat) (v : List Byte) : Prop :=
  (mask.testBit 0 = true → byteAt v 1 ≤ 63)
  ∧ (mask.testBit 1 = true → byteAt v 2 ≤ 2)
  ∧ (mask.testBit 2 = true → 1 ≤ byteAt v 3 ∧ byteAt v 3 ≤ 8)
  ∧ (mask.testBit 3 = true → byteAt v 4 ≤ 1)
  ∧ (mask.testBit 4 = true → byteAt v 5 ≤ 1)
  ∧ (mask.testBit 5 = true → byteAt v 6 ≤ 1)

/-- `y` is a SLOT entry with the named fields taken from their bytes; where it names another channel,
what the earlier one offered is in flight to it no more (assumption 9). -/
def SlotWritten (x y : Slot) (mask : Nat) (v : List Byte) : Prop :=
  y.channel.val = (if mask.testBit 0 = true then byteAt v 1 else x.channel.val)
  ∧ y = { x with
      channel := y.channel
      mode := if mask.testBit 1 = true then
          (if byteAt v 2 = 0 then .mean else if byteAt v 2 = 1 then .enhance else .peak)
        else x.mode
      exponent := if mask.testBit 2 = true then byteAt v 3 else x.exponent
      trigger := if mask.testBit 3 = true then
          (if byteAt v 4 = 0 then .continuous else .gated)
        else x.trigger
      toEgress := if mask.testBit 4 = true then decide (byteAt v 5 = 1) else x.toEgress
      notifyBroken := if mask.testBit 5 = true then decide (byteAt v 6 = 1) else x.notifyBroken
      inbox := if y.channel = x.channel then x.inbox else [] }

/-- The named values of a RULE write are in their ranges (R42). -/
def RuleValuesGood (mask : Nat) (v : List Byte) : Prop :=
  (mask.testBit 0 = true → byteAt v 1 ≤ 1)
  ∧ (mask.testBit 1 = true → byteAt v 2 ≤ 63)
  ∧ (mask.testBit 2 = true → byteAt v 3 ≤ 1)
  ∧ (mask.testBit 3 = true → byteAt v 4 ≤ 4)
  ∧ (mask.testBit 6 = true → read4 v 13 ≤ 2147483647)
  ∧ (mask.testBit 7 = true → 1 ≤ byteAt v 17)
  ∧ (mask.testBit 8 = true → byteAt v 18 ≤ 1)
  ∧ (mask.testBit 9 = true → byteAt v 19 ≤ 1)
  ∧ (mask.testBit 10 = true → byteAt v 20 ≤ 7 ∨ byteAt v 20 = 255)
  ∧ (mask.testBit 11 = true → byteAt v 21 ≤ 15 ∨ byteAt v 21 = 255)

/-- `y` is a RULE entry with the named fields taken from their bytes; where it names another source,
what the earlier one offered is in flight to it no more (assumption 9). -/
def RuleWritten (x y : Rule) (mask : Nat) (v : List Byte) : Prop :=
  y.sourceIndex.val = (if mask.testBit 1 = true then byteAt v 2 else x.sourceIndex.val)
  ∧ y.freezeRing.map (·.val) = (if mask.testBit 10 = true then
      (if byteAt v 20 = 255 then none else some (byteAt v 20)) else x.freezeRing.map (·.val))
  ∧ y.startSlot.map (·.val) = (if mask.testBit 11 = true then
      (if byteAt v 21 = 255 then none else some (byteAt v 21)) else x.startSlot.map (·.val))
  ∧ y = { x with
      sourceKind := if mask.testBit 0 = true then (if byteAt v 1 = 0 then .channel else .slot)
        else x.sourceKind
      sourceIndex := y.sourceIndex
      peakPart := if mask.testBit 2 = true then (if byteAt v 3 = 0 then .max else .min)
        else x.peakPart
      criterion := if mask.testBit 3 = true then
          (if byteAt v 4 = 0 then .above else if byteAt v 4 = 1 then .below
            else if byteAt v 4 = 2 then .inside else if byteAt v 4 = 3 then .outside else .step)
        else x.criterion
      low := if mask.testBit 4 = true then readSigned4 v 5 else x.low
      high := if mask.testBit 5 = true then readSigned4 v 9 else x.high
      hyst := if mask.testBit 6 = true then read4 v 13 else x.hyst
      persistence := if mask.testBit 7 = true then byteAt v 17 else x.persistence
      eventOnAssert := if mask.testBit 8 = true then decide (byteAt v 18 = 1) else x.eventOnAssert
      eventOnRelease := if mask.testBit 9 = true then decide (byteAt v 19 = 1)
        else x.eventOnRelease
      freezeRing := y.freezeRing
      startSlot := y.startSlot
      inbox := if y.sourceKind = x.sourceKind ∧ y.sourceIndex = x.sourceIndex then x.inbox else [] }

/-- `y` is a RING entry with the named fields taken from their bytes; where it names another source,
what the earlier one offered is in flight to it no more (assumption 9). -/
def RingWritten (x y : Ring) (mask : Nat) (v : List Byte) : Prop :=
  y.sourceIndex.val = (if mask.testBit 4 = true then byteAt v 9 else x.sourceIndex.val)
  ∧ y = { x with
      base := if mask.testBit 0 = true then read2 v 1 else x.base
      length := if mask.testBit 1 = true then read4 v 3 else x.length
      mode := if mask.testBit 2 = true then (if byteAt v 7 = 0 then .stream else .snapshot)
        else x.mode
      sourceKind := if mask.testBit 3 = true then (if byteAt v 8 = 0 then .channel else .slot)
        else x.sourceKind
      sourceIndex := y.sourceIndex
      overflow := if mask.testBit 5 = true then (if byteAt v 10 = 0 then .stall else .overwrite)
        else x.overflow
      postCount := if mask.testBit 6 = true then read4 v 11 else x.postCount
      notify := if mask.testBit 7 = true then decide (byteAt v 15 = 1) else x.notify
      inbox := if y.sourceKind = x.sourceKind ∧ y.sourceIndex = x.sourceIndex then x.inbox else [] }

/-- The named values of a RING write are in their ranges, and base, length and post count meet their
relations as they would stand after the write (R67). -/
def RingValuesGood (x : Ring) (mask : Nat) (v : List Byte) : Prop :=
  (mask.testBit 0 = true → read2 v 1 % 64 = 0 ∧ read2 v 1 ≤ 65472)
  ∧ (mask.testBit 1 = true → read4 v 3 % 64 = 0 ∧ 128 ≤ read4 v 3 ∧ read4 v 3 ≤ 65536)
  ∧ (mask.testBit 2 = true → byteAt v 7 ≤ 1)
  ∧ (mask.testBit 3 = true → byteAt v 8 ≤ 1)
  ∧ (mask.testBit 4 = true → byteAt v 9 ≤ 63)
  ∧ (mask.testBit 5 = true → byteAt v 10 ≤ 1)
  ∧ (mask.testBit 7 = true → byteAt v 15 ≤ 1)
  ∧ (if mask.testBit 0 = true then read2 v 1 else x.base)
      + (if mask.testBit 1 = true then read4 v 3 else x.length) ≤ 65536
  ∧ (if mask.testBit 6 = true then read4 v 11 else x.postCount)
      ≤ (if mask.testBit 1 = true then read4 v 3 else x.length)

/-- The named values of a GLOBAL write are in their ranges (R138). -/
def GlobalValuesGood (mask : Nat) (v : List Byte) : Prop :=
  (mask.testBit 1 = true → byteAt v 1 ≤ 1)
  ∧ (mask.testBit 2 = true → 1 ≤ byteAt v 2 ∧ byteAt v 2 ≤ 16)
  ∧ (mask.testBit 3 = true → 1 ≤ byteAt v 3)
  ∧ (mask.testBit 4 = true → 1 ≤ byteAt v 4 ∧ byteAt v 4 ≤ 15)
  ∧ (mask.testBit 5 = true → 1 ≤ byteAt v 5 ∧ byteAt v 5 ≤ 64)
  ∧ (mask.testBit 6 = true → 1 ≤ byteAt v 6 ∧ byteAt v 6 ≤ 16)

/-- GLOBAL with the named fields taken from their bytes. -/
def globalWritten (g : Global) (mask : Nat) (v : List Byte) : Global :=
  { nodeId := g.nodeId
    unknownPolicy := if mask.testBit 1 = true then
      (if byteAt v 1 = 0 then .pass else .drop) else g.unknownPolicy
    eventWindow := if mask.testBit 2 = true then byteAt v 2 else g.eventWindow
    retransmitTimeout := if mask.testBit 3 = true then byteAt v 3 else g.retransmitTimeout
    retryLimit := if mask.testBit 4 = true then byteAt v 4 else g.retryLimit
    reducedHold := if mask.testBit 5 = true then byteAt v 5 else g.reducedHold
    dtStreak := if mask.testBit 6 = true then byteAt v 6 else g.dtStreak }

end Sys2Proof
end

