-- ==== Sys2Proof/Certificates/Slice0/Obligations.lean ====
section
/-! DEFINITION. The statements for the provers, one `def Obligations.<Name> : Prop` each. The rules they
formalise are named in their docstrings. -/

open Sys2Proof Sys2Proof.Machine

/-! ### The machine -/

/-- A step takes the command at the front of the queue and runs it on the state with the rest of the
queue (00 "Events at blocks"). -/
def Obligations.StepRunsFrontCommand : Prop :=
  ∀ (c : Instr) (rest : List Instr) (s : State), s.pending = c :: rest →
    step s = exec c { s with pending := rest }

/-- With no command waiting, a step is one microsecond: the timebase counts on and wraps (R3), running
timers count down (R4), the 1 ms period of each port in UP counts (R170), and nothing else changes. That
time passes on an empty queue is the model's choice (assumption 3). -/
def Obligations.IdleStepPassesOneMicrosecond : Prop :=
  ∀ s : State, s.pending = [] → ∃ t : State, step s = .next t
    ∧ t.timebase = (s.timebase + 1) % 4294967296
    ∧ (∀ p, t.port p = { s.port p with flowElapsed :=
        if (s.port p).link = .up then (s.port p).flowElapsed + 1 else (s.port p).flowElapsed })
    ∧ (s.events.timer = .stopped → t.events.timer = .stopped)
    ∧ (∀ n, s.events.timer = .running n → t.events.timer = .running (n - 1))
    ∧ (s.egress.holdTimer = .stopped → t.egress.holdTimer = .stopped)
    ∧ (∀ n, s.egress.holdTimer = .running n → t.egress.holdTimer = .running (n - 1))
    ∧ t = { s with
        timebase := t.timebase
        fPort := t.fPort
        cPort := t.cPort
        events := { s.events with timer := t.events.timer }
        egress := { s.egress with holdTimer := t.egress.holdTimer } }

/-- The values the manual gives each table, queue, count and port at a hard reset, with any straps
(sections 1.3, 1.4, 2.1, 3.1, 4.2, 5.1, 6.2, 7.5, 8.1, 9.1). Two clauses are the model's choices: capture
memory reads 0 right after the hard reset, where R66 clears it during initialisation (assumption 2), and
nothing is in flight to a block: no item, START, FREEZE, request or change of the C-port (assumption 16). -/
def Obligations.ResetGivesEveryBlockItsDefaults : Prop :=
  ∀ straps : Fin 16, ∃ s : State, s = State.resetWith straps
    ∧ s.phase = .initialising
    ∧ (∀ p, (s.port p).link = .down ∧ (s.port p).trainCount = 0 ∧ (s.port p).heard = false
        ∧ (s.port p).paused = false ∧ (s.port p).holdSent = false ∧ (s.port p).framesGood = 0
        ∧ (s.port p).crcErrors = 0 ∧ (s.port p).malformed = 0)
    ∧ (∀ n, s.classifier.nodes.get n = ⟨.unseen, 0, 0, 0, 0, 0⟩)
    ∧ (∀ c, s.channel c = ⟨false, 0, 0, .signed, .pass, 2, 0, none, 0⟩)
    ∧ s.classifier.staleFrames = 0
    ∧ (∀ k, s.slots.get k = ⟨false, 0, .mean, 2, .continuous, false, false, .off, 0, 0, 0, none, false,
        [], 0⟩)
    ∧ (∀ k, s.rules.get k = ⟨false, .channel, 0, .max, .above, 0, 0, 0, 1, true, false, none, none, .off,
        0, none, 0, none, []⟩)
    ∧ (∀ k, s.rings.get k = ⟨false, 0, 0, .stream, .channel, 0, .stall, 0, false, 0, 0,
        ⟨.off, ⟨.empty, 0, false, false⟩, ⟨.empty, 0, false, false⟩, false⟩,
        ⟨.off, 0, 0, 0, false, none, none⟩, [], []⟩)
    ∧ (∀ o, s.memory.read o = 0)
    ∧ s.readout = ⟨.free, 0, 0, 0⟩
    ∧ s.events = ⟨[], 0, 0, 0, .suspended, 0, .stopped, [], []⟩
    ∧ (∀ tag, s.management.cache.get tag = none)
    ∧ s.management.current = none ∧ s.management.waiting = [] ∧ s.management.shares.taken = []
    ∧ s.management.global = ⟨straps.val + 1, .pass, 8, 20, 4, 4, 4⟩
    ∧ (s.egress.fw, s.egress.dt, s.egress.mr, s.egress.ob) = ([], [], [], [])
    ∧ s.egress.openFrame = [] ∧ s.egress.holdTimer = .stopped ∧ s.egress.streak = 0
    ∧ (s.egress.fwDrops, s.egress.downDiscards, s.egress.reducedDropped, s.egress.obDrops) = (0, 0, 0, 0)

/-- Every property of section "invariants" below holds in the state right after a hard reset, with any
straps. That capture memory is clear and nothing in flight in that state is the model's choice (assumptions 2
and 16). -/
def Obligations.InvariantsHoldAtReset : Prop :=
  ∀ (straps : Fin 16) (s : State), s = State.resetWith straps →
    s.memory.wf = true
    ∧ QueuesBounded s
    ∧ (KeysDistinct s ∧ SourcesEnabled s ∧ RulesConsistent s ∧ RangesDisjoint s)
    ∧ (SlotsSound s ∧ RulesSound s)
    ∧ (RingsSound s ∧ RangesSound s ∧ FillsSound s ∧ ReadoutInRange s)
    ∧ QueueInOrder s
    ∧ (DeliverySound s ∧ InitialisingAtReset s)
    ∧ (HeldEmpty s ∧ EventsTookTheLink s ∧ HoldTimerSound s ∧ GlobalInRange s ∧ CountsBounded s)
    ∧ SharesSound s
    ∧ ReadoutSound s
    ∧ PortsSound s
    ∧ (WidthsKept s ∧ ItemsFit s)

/-! ### Invariants that every step keeps -/

/-- Capture memory keeps its canonical form: offsets rising, below 65,536, no word listed as 0 (R65). -/
def Obligations.CaptureMemoryStaysCanonical : Prop :=
  ∀ s t : State, s.memory.wf = true → step s = .next t → t.memory.wf = true

/-- Channel keys stay distinct, enabled consumers and targets stay linked to enabled sources, enabled
rules stay consistent and enabled ranges stay disjoint (R11, R25, R44, R45, R69). -/
def Obligations.TableLinksStaySound : Prop :=
  ∀ s t : State,
    KeysDistinct s ∧ SourcesEnabled s ∧ RulesConsistent s ∧ RangesDisjoint s → step s = .next t →
    KeysDistinct t ∧ SourcesEnabled t ∧ RulesConsistent t ∧ RangesDisjoint t

/-- A slot's window and a rule's run count stay as R27, R51 and R52 say. -/
def Obligations.SlotsAndRulesStaySound : Prop :=
  ∀ s t : State, SlotsSound s ∧ RulesSound s → step s = .next t → SlotsSound t ∧ RulesSound t

/-- Halves, writers and snapshots stay as R73 and R81 say, ranges and valid lengths as R67 and R81 say,
and a part is READING exactly while the engine is SENDING with it (R92). -/
def Obligations.RingsStaySound : Prop :=
  ∀ s t : State, RingsSound s ∧ RangesSound s → step s = .next t → RingsSound t ∧ RangesSound t

/-- The words of an item, a half and a readout stay in range: an item in flight to a ring gives the words of
its source, a half's fill stays whole items and at most half the range, below it while FILLING and not 0
while FULL or READING (R71, R73), and the words of the readout in progress stay those of its part (R94): of
a half its fill from its first offset on, of a snapshot the V valid words of the capture record from
position (E - V) mod L on. -/
def Obligations.FillsAndReadoutsStayInRange : Prop :=
  ∀ s t : State, SourcesEnabled s ∧ RingsSound s ∧ RangesSound s → FillsSound s ∧ ReadoutInRange s →
    step s = .next t → FillsSound t ∧ ReadoutInRange t

/-- No step of a sound state stops: no command meets a fault or a refusal, and none reaches outside capture
memory (R65, R69, R74, R82, R96, R97). -/
def Obligations.SoundStatesRunOn : Prop :=
  ∀ s : State, RingsSound s → RangesSound s → FillsSound s → ReadoutInRange s → runsOn (step s) = true

/-- The event queue keeps consecutive serials up to the serial counter, and SENT before UNSENT (R108); the
retransmit timer runs exactly while delivery is ACTIVE and SENT records wait (section 6.4); and
initialisation leaves every block at its hard-reset values until it completes (R165). -/
def Obligations.EventUnitStaysSound : Prop :=
  ∀ s t : State, QueueInOrder s ∧ DeliverySound s ∧ InitialisingAtReset s → step s = .next t →
    QueueInOrder t ∧ DeliverySound t ∧ InitialisingAtReset t

/-- FW, DT, OB, MR, the open frame, the event queue and the pending-request list keep to their bounds
(R107, R129, R148, R153); FW, DT and MR stay empty while held (R160), the event unit has taken every change
of the C-port when the scheduler has released them (R174; assumption 26), the hold timer runs exactly while a
reduced frame waits (R153), GLOBAL stays in range (section 7.5), the FW streak and the SENT count keep to
their bounds (R107, R159), and shares are taken only in a request that several blocks take part in, by
those blocks and by each at most once (R141, R142, R145). -/
def Obligations.QueuesStaySound : Prop :=
  ∀ s t : State,
    QueuesBounded s ∧ HeldEmpty s ∧ EventsTookTheLink s ∧ HoldTimerSound s ∧ GlobalInRange s
      ∧ CountsBounded s ∧ SharesSound s →
    step s = .next t →
    QueuesBounded t ∧ HeldEmpty t ∧ EventsTookTheLink t ∧ HoldTimerSound t ∧ GlobalInRange t
      ∧ CountsBounded t ∧ SharesSound t

/-- The READOUT frames in DT stay those of the readout in progress, without a hole and with LAST at
their end (R91, R95, R99, R101, R102). -/
def Obligations.ReadoutStaysSound : Prop :=
  ∀ s t : State, ReadoutSound s → step s = .next t → ReadoutSound t

/-- The ports stay as R164 says, and are DOWN exactly during initialisation (R165). -/
def Obligations.PortsStaySound : Prop :=
  ∀ s t : State, PortsSound s → step s = .next t → PortsSound t

/-- Counts, indices, time marks, serials, readout ids, gap marks and the retry count keep to the widths
their chapters give them, and what the blocks pass to one another and hold to be sent keeps to the fields
that carry it, so that every field of a record or frame reads back as it stands (R3, R5, R6, R15, R22, R29,
R91, R109, R118, R140, section 10.4). -/
def Obligations.WidthsAreKept : Prop :=
  ∀ s t : State,
    GlobalInRange s ∧ QueuesBounded s ∧ DeliverySound s ∧ SlotsSound s ∧ RingsSound s ∧ RangesSound s
      ∧ FillsSound s ∧ ReadoutInRange s ∧ ReadoutSound s →
    WidthsKept s ∧ ItemsFit s → step s = .next t → WidthsKept t ∧ ItemsFit t

/-! ### Hard reset and the ports (chapter 9) -/

/-- HARD_RESET: after power-on, or a low on RSTn of 10 µs or more, every block stands at its hard-reset
values, with the node id from the straps, and a frame being sent is cut off; a shorter low changes
nothing (R127, R165). Of the state so left these are the model's choices: the timebase 0 and capture memory
clear at once, which chapter 9 says of the completion only (assumption 2), the record of each port's line kept
(assumption 14), what was in flight between blocks gone and the waiting commands kept (assumption 16), and the
count of free choices kept (assumption 24). INITIALISATION_COMPLETE: in one event the timebase is 0, capture memory is clear,
STARTED(HARD) is queued with serial 0 and time mark 0, and both ports are in TRAINING (R66, R113, R165). -/
def Obligations.HardResetAndInitialisation : Prop :=
  (∀ (cause : ResetCause) (straps : Fin 16) (s : State),
    (cause = .powerOn ∨ ∃ micros, cause = .rstnLow micros ∧ 10 ≤ micros) →
    exec (.hardReset cause straps) s = .next
      { State.resetWith straps with
        fPort := { Port.reset with line :=
          s.fPort.line ++ (if s.fPort.sending = none then [] else [.frameCut]) }
        cPort := { Port.reset with line :=
          s.cPort.line ++ (if s.cPort.sending = none then [] else [.frameCut]) }
        choices := s.choices
        pending := s.pending })
  ∧ (∀ (micros : Nat) (straps : Fin 16) (s : State), micros < 10 →
    exec (.hardReset (.rstnLow micros) straps) s = .next s)
  ∧ ∀ s : State, s.phase = .initialising → ∃ t : State, exec .initialisationComplete s = .next t
      ∧ t.phase = .operating ∧ t.timebase = 0 ∧ (∀ o, t.memory.read o = 0)
      ∧ t.events.queue = [{ serial := 0, kind := .started, subject := 0, channel := none, value := none,
                            count := none, time := 0, sent := .unsent }]
      ∧ t.events.serial = 1
      ∧ (∀ p, t.port p = { s.port p with link := .training, trainCount := 0, heard := false })
      ∧ t = { s with phase := t.phase, timebase := t.timebase, memory := t.memory,
                     events := { s.events with queue := t.events.queue, serial := t.events.serial },
                     fPort := t.fPort, cPort := t.cPort }

/-- What a port in TRAINING does with what it receives, while it does not enter UP: a valid TRAIN symbol
counts up to 8 and sets heard at 8; an undecodable symbol and a loss of lock return the count to 0; a
HOLD or GO symbol below count 8, and a frame, change nothing (R166). A port in DOWN takes nothing
(R165). A port in TRAINING enters UP on the TRAIN symbol with heard on that brings, or finds, its count at
8, and on a HOLD or GO symbol at count 8 (R166). In that event paused goes off, the port sends the symbol of
its hold-sent flag and requests LINK_STATE with its subject (R106, R167, R175), and of the C-port the
scheduler and the event unit are told (R174). The period of symbol repetition starts here, which is the
model's choice (assumption 13). -/
def Obligations.TrainingAndEnteringUp : Prop :=
  (∀ (p : PortId) (s : State),
     ((s.port p).link = .training →
       (∀ heard : Bool, heard = false ∨ (s.port p).trainCount + 1 < 8 →
         exec (.receiveTrain p heard) s = .next (s.setPort p
           { s.port p with
             trainCount := if (s.port p).trainCount < 8 then (s.port p).trainCount + 1 else 8
             heard := decide (8 ≤ (s.port p).trainCount + 1) }))
       ∧ exec (.undecodableSymbol p) s
           = .next (s.setPort p { s.port p with trainCount := 0, heard := false })
       ∧ exec (.lossOfLock p) s
           = .next (s.setPort p { s.port p with trainCount := 0, heard := false })
       ∧ ((s.port p).trainCount < 8 →
           exec (.receiveHold p) s = .next s ∧ exec (.receiveGo p) s = .next s)
       ∧ ∀ bytes, exec (.frameReceived p bytes) s = .next s)
     ∧ ((s.port p).link = .down →
       (∀ heard, exec (.receiveTrain p heard) s = .next s)
       ∧ exec (.undecodableSymbol p) s = .next s ∧ exec (.lossOfLock p) s = .next s
       ∧ exec (.receiveHold p) s = .next s ∧ exec (.receiveGo p) s = .next s
       ∧ ∀ bytes, exec (.frameReceived p bytes) s = .next s))
  ∧ (∀ (p : PortId) (c : Instr) (s : State), (s.port p).link = .training →
     ((c = .receiveTrain p true ∧ 7 ≤ (s.port p).trainCount)
       ∨ ((c = .receiveHold p ∨ c = .receiveGo p) ∧ (s.port p).trainCount = 8)) →
     ∃ t : State, exec c s = .next t
       ∧ (t.port p).link = .up ∧ (t.port p).trainCount = 8 ∧ (t.port p).paused = false
       ∧ (t.port p).heard = (if c = .receiveTrain p true then true else (s.port p).heard)
       ∧ (t.port p).flowElapsed = 0
       ∧ (t.port p).line
           = (s.port p).line ++ [.symbol (if (s.port p).holdSent = true then .hold else .go)]
       ∧ t.port p = { s.port p with
           link := .up, trainCount := 8, paused := false, heard := (t.port p).heard, flowElapsed := 0,
           line := (t.port p).line }
       ∧ (∀ q, q ≠ p → t.port q = s.port q)
       ∧ t.events.requests = s.events.requests
           ++ [{ requester := .port p, kind := .linkState, subject := if p = .f then 1 else 3,
                 channel := none, value := none, count := none, time := s.timebase }]
       ∧ t.events.linkChanges = s.events.linkChanges ++ (if p = .c then [.cameUp] else [])
       ∧ t.egress.cChanges = s.egress.cChanges ++ (if p = .c then [.cameUp] else [])
       ∧ t = { s with
           fPort := t.fPort
           cPort := t.cPort
           events := { s.events with
             requests := t.events.requests, linkChanges := t.events.linkChanges }
           egress := { s.egress with cChanges := t.egress.cChanges } })

/-- A port in UP leaves it on a loss of lock and on a TRAIN symbol with heard off: it enters TRAINING
with count 0, heard off and paused off, cuts off the frame being sent, keeps hold sent and requests
LINK_STATE; the blocks concerned are told (R168, R173, R174, R175). That the F-port's loss joins the
classifier's one line, behind every frame that waits there, is the model's reading of R21 and R172
(assumption 8). A TRAIN symbol with heard on and a corrupted symbol leave it in UP (R168). -/
def Obligations.LeavingUpRetrains : Prop :=
  ∀ (p : PortId) (c : Instr) (s : State), (s.port p).link = .up →
    exec (.receiveTrain p true) s = .next s
    ∧ exec (.undecodableSymbol p) s = .next s
    ∧ (c = .lossOfLock p ∨ c = .receiveTrain p false → ∃ t : State, exec c s = .next t
      ∧ t.port p = { s.port p with
          link := .training, trainCount := 0, heard := false, paused := false, sending := none,
          line := (s.port p).line ++ (if (s.port p).sending = none then [] else [.frameCut]) }
      ∧ (∀ q, q ≠ p → t.port q = s.port q)
      ∧ t.events.requests = s.events.requests
          ++ [{ requester := .port p, kind := .linkState, subject := if p = .f then 0 else 2,
                channel := none, value := none, count := none, time := s.timebase }]
      ∧ t.events.linkChanges = s.events.linkChanges ++ (if p = .c then [.leftUp] else [])
      ∧ t.egress.cChanges = s.egress.cChanges ++ (if p = .c then [.leftUp] else [])
      ∧ t.egress.fLosses = s.egress.fLosses + (if p = .f then 1 else 0)
      ∧ t.classifier.inbox = s.classifier.inbox ++ (if p = .f then [.portLeftUp] else [])
      ∧ t = { s with
          fPort := t.fPort
          cPort := t.cPort
          classifier := { s.classifier with inbox := t.classifier.inbox }
          events := { s.events with
            requests := t.events.requests, linkChanges := t.events.linkChanges }
          egress := { s.egress with cChanges := t.egress.cChanges, fLosses := t.egress.fLosses } })

/-- In UP a HOLD sets paused on and a GO sets it off, and nothing else changes; while paused is on the
arbiter grants nothing and no frame of OB is begun, and the frame being sent is still sent to its end; in
TRAINING below count 8 the two symbols change nothing (R169). -/
def Obligations.FlowSymbolsPauseTransmitter : Prop :=
  (∀ (p : PortId) (s : State), (s.port p).link = .up →
    exec (.receiveHold p) s = .next (s.setPort p { s.port p with paused := true })
    ∧ exec (.receiveGo p) s = .next (s.setPort p { s.port p with paused := false })
    ∧ ((s.port p).paused = true → exec (.receiveHold p) s = .next s)
    ∧ ((s.port p).paused = false → exec (.receiveGo p) s = .next s))
  ∧ (∀ s : State, s.cPort.paused = true → exec .arbiterGrant s = .next s)
  ∧ (∀ s : State, s.fPort.paused = true → exec .obSend s = .next s)
  ∧ (∀ (p : PortId) (s : State) (bytes : List Byte), (s.port p).sending = some bytes →
      exec (.frameSendComplete p) s = .next (s.setPort p
        { s.port p with sending := none, line := (s.port p).line ++ [.frameSent] }))
  ∧ ∀ (p : PortId) (s : State), (s.port p).link = .training → (s.port p).trainCount < 8 →
      exec (.receiveHold p) s = .next s ∧ exec (.receiveGo p) s = .next s

/-- Hold sent follows the changes of the watched queue that the port is told of: on at the high threshold,
off at the low one or below, with the symbol of the new flag while the port is UP. At the end of each 1 ms
in UP the symbol of the present flag is repeated (R170). That the period begins when the port enters UP
and keeps its cadence from there, the `flowElapsed - 1000` below, is the model's choice (assumption 13). -/
def Obligations.HoldSentFollowsOccupancy : Prop :=
  (∀ (p : PortId) (s : State) (n : Nat) (rest : List OccupancyChange) (high : Nat),
    high = (if p = .f then 24 else 6) → (s.port p).occupancy = .joined n :: rest →
    (n ≤ high ∨ (s.port p).holdSent = true) → ∃ x : Port,
      exec (.holdSentChange p) s = .next (s.setPort p x)
      ∧ x.holdSent = (if n = high then true else (s.port p).holdSent)
      ∧ x.line = (s.port p).line
          ++ (if (s.port p).holdSent = false ∧ n = high ∧ (s.port p).link = .up then [.symbol .hold]
            else [])
      ∧ x = { s.port p with occupancy := rest, holdSent := x.holdSent, line := x.line })
  ∧ (∀ (p : PortId) (s : State) (n : Nat) (rest : List OccupancyChange) (low : Nat),
    low = (if p = .f then 8 else 2) → (s.port p).occupancy = .removed n :: rest → ∃ x : Port,
      exec (.holdSentChange p) s = .next (s.setPort p x)
      ∧ x.holdSent = (if n ≤ low then false else (s.port p).holdSent)
      ∧ x.line = (s.port p).line
          ++ (if (s.port p).holdSent = true ∧ n ≤ low ∧ (s.port p).link = .up then [.symbol .go]
            else [])
      ∧ x = { s.port p with occupancy := rest, holdSent := x.holdSent, line := x.line })
  ∧ ∀ (p : PortId) (s : State), (s.port p).link = .up → 1000 ≤ (s.port p).flowElapsed →
    exec (.flowSymbolRepeat p) s = .next (s.setPort p
      { s.port p with
        flowElapsed := (s.port p).flowElapsed - 1000
        line := (s.port p).line ++ [.symbol (if (s.port p).holdSent = true then .hold else .go)] })

/-! ### Received frames (sections 9.5, 7.1, 8.7) -/

/-- A port in UP checks a frame it receives whole, `body` closed by the CRC bytes `hi`, `lo`: a CRC that
differs is a CRC error; else a frame shorter than its header, a payload length above 252 or other than
the number of payload bytes, or a kind outside 1..8 is malformed; neither changes anything else. A frame
that passes counts as good (R171, R176). -/
def Obligations.ReceivedFramesAreChecked : Prop :=
  ∀ (p : PortId) (s : State) (body : List Byte) (hi lo : Byte), (s.port p).link = .up →
    (crc16 body ≠ hi ++ lo →
      exec (.frameReceived p (body ++ [hi, lo])) s = .next (s.setPort p
        { s.port p with crcErrors := min ((s.port p).crcErrors + 1) 4294967295 }))
    ∧ (crc16 body = hi ++ lo →
      (body.length < 4 ∨ 252 < byteAt body 3 ∨ byteAt body 3 ≠ body.length - 4
        ∨ byteAt body 0 / 16 = 0 ∨ 8 < byteAt body 0 / 16) →
      exec (.frameReceived p (body ++ [hi, lo])) s = .next (s.setPort p
        { s.port p with malformed := min ((s.port p).malformed + 1) 4294967295 }))
    ∧ (crc16 body = hi ++ lo → 4 ≤ body.length → byteAt body 3 ≤ 252 →
      byteAt body 3 = body.length - 4 → 1 ≤ byteAt body 0 / 16 → byteAt body 0 / 16 ≤ 8 →
      ∃ t : State, exec (.frameReceived p (body ++ [hi, lo])) s = .next t
        ∧ (t.port p).framesGood = min ((s.port p).framesGood + 1) 4294967295
        ∧ (t.port p).crcErrors = (s.port p).crcErrors)

/-- A frame that passes the checks of the F-port goes to the classifier if its kind is SAMPLE, behind the
frames and losses that wait there (assumption 8), and else toward FW, behind those that came before; it
changes nothing else but the count of good frames (R171, R172). A frame that passes the checks of the C-port: a REQUEST for the part is executed next if no
request is being executed, waits if fewer than 4 do, and is else dropped and counted as malformed; a
broadcast IDENT is taken in the same way and copied toward OB; every other frame joins OB where OB holds
fewer than 8, and is else dropped and counted. The C-port is told of OB's new occupancy (R126, R129, R161,
R162, R170, R172). -/
def Obligations.AcceptedFramesAreHandedOn : Prop :=
  (∀ (s : State) (bytes : List Byte), s.fPort.link = .up → Accepted bytes →
     exec (.frameReceived .f bytes) s = .next { s with
       fPort := { s.fPort with framesGood := min (s.fPort.framesGood + 1) 4294967295 }
       classifier := { s.classifier with inbox :=
         s.classifier.inbox ++ (if frameKind bytes = 1 then [.frame bytes] else []) }
       egress := { s.egress with others :=
         s.egress.others ++ (if frameKind bytes = 1 then [] else [bytes]) } })
  ∧ (∀ (s : State) (bytes payload : List Byte) (forPart copied : Bool), s.cPort.link = .up →
     Accepted bytes → payload = framePayload bytes →
     forPart = decide (frameKind bytes = 3 ∧ (frameDest bytes = s.ownNode
       ∨ (frameDest bytes = 31 ∧ 3 ≤ payload.length ∧ byteAt payload 2 = 1))) →
     copied = decide (¬ (frameKind bytes = 3 ∧ frameDest bytes = s.ownNode)) →
     ∃ t : State, exec (.frameReceived .c bytes) s = .next t
       ∧ t.management.current
           = (if forPart = true ∧ s.management.current = none then some payload
             else s.management.current)
       ∧ t.management.waiting
           = s.management.waiting
             ++ (if forPart = true ∧ s.management.current ≠ none ∧ s.management.waiting.length < 4
               then [payload] else [])
       ∧ t.cPort.malformed
           = (if forPart = true ∧ s.management.current ≠ none ∧ 4 ≤ s.management.waiting.length
             then min (s.cPort.malformed + 1) 4294967295 else s.cPort.malformed)
       ∧ t.egress.ob
           = s.egress.ob ++ (if copied = true ∧ s.egress.ob.length < 8 then [bytes] else [])
       ∧ t.cPort.occupancy = s.cPort.occupancy
           ++ (if copied = true ∧ s.egress.ob.length < 8 then [.joined (s.egress.ob.length + 1)] else [])
       ∧ t.egress.obDrops
           = (if copied = true ∧ 8 ≤ s.egress.ob.length then min (s.egress.obDrops + 1) 4294967295
             else s.egress.obDrops)
       ∧ t.cPort.framesGood = min (s.cPort.framesGood + 1) 4294967295
       ∧ t = { s with
           cPort := { s.cPort with framesGood := t.cPort.framesGood, malformed := t.cPort.malformed,
                                   occupancy := t.cPort.occupancy }
           management := { s.management with current := t.management.current,
                                             waiting := t.management.waiting }
           egress := { s.egress with ob := t.egress.ob, obDrops := t.egress.obDrops } })

/-- OB_SEND: with the F-port UP, free and not paused, and its last loss taken (assumption 12), the
oldest frame of OB leaves it and is sent, and the C-port is told of the occupancy left (R163, R170).
F_PORT_LEAVING_UP_EGRESS: OB is emptied, nothing of it counted, and the C-port is told (R163, R173).
FW_PLACE, by either way: while the C-port is not UP the frame is discarded and counted; else it joins
FW where FW holds fewer than 32, and the F-port is told; else it is discarded and counted. A candidate
goes as the frame rebuilt from it, a frame of another kind as it arrived (R151, R152, R160, R170). A frame
of another kind stands behind every candidate handed on before it reaches the scheduler (R150); that it
reaches the scheduler by FW_PLACE, which therefore places nothing by its way while a candidate waits, is the
model's choice (assumption 5). -/
def Obligations.FramesEnterAndLeaveTheQueues : Prop :=
  ((∀ (s : State) (frame : List Byte) (rest : List (List Byte)), s.fPort.link = .up →
     s.fPort.sending = none → s.fPort.paused = false → s.egress.fLosses = 0 →
     s.egress.ob = frame :: rest →
     exec .obSend s = .next { s with
       egress := { s.egress with ob := rest }
       cPort := { s.cPort with occupancy := s.cPort.occupancy ++ [.removed rest.length] }
       fPort := { s.fPort with sending := some frame, line := s.fPort.line ++ [.frameBegun frame] } })
   ∧ ∀ (s : State) (n : Nat), s.egress.fLosses = n + 1 →
     exec .fPortLeavingUpEgress s = .next { s with
       egress := { s.egress with ob := [], fLosses := n }
       cPort := { s.cPort with occupancy := s.cPort.occupancy ++ [.removed 0] } })
  ∧ (∀ (way : FwWay) (s s₀ : State) (frame : List Byte),
     ((way = .candidate ∧ ∃ c cs, s.egress.candidates = c :: cs ∧ frame = c.rebuild
         ∧ s₀ = { s with egress := { s.egress with candidates := cs } })
       ∨ (way = .other ∧ s.egress.candidates = [] ∧ ∃ fs, s.egress.others = frame :: fs
         ∧ s₀ = { s with egress := { s.egress with others := fs } })) →
     (s.egress.held = true → exec (.fwPlace way) s = .next { s₀ with
       egress := { s₀.egress with downDiscards := min (s.egress.downDiscards + 1) 4294967295 } })
     ∧ (s.egress.held = false → s.egress.fw.length < 32 → exec (.fwPlace way) s = .next { s₀ with
       egress := { s₀.egress with fw := s.egress.fw ++ [frame] }
       fPort := { s.fPort with
         occupancy := s.fPort.occupancy ++ [.joined (s.egress.fw.length + 1)] } })
     ∧ (s.egress.held = false → 32 ≤ s.egress.fw.length → exec (.fwPlace way) s = .next { s₀ with
       egress := { s₀.egress with fwDrops := min (s.egress.fwDrops + 1) 4294967295 } }))
  ∧ ∀ s : State, s.egress.candidates ≠ [] → exec (.fwPlace .other) s = .next s

/-! ### The classifier (chapter 1) -/

/-- A SAMPLE frame whose source node is not in 1..30 or is the part's own, whose count is not in 1..32,
or whose payload length is not 3 + 4n, is dropped whole and counted on the F-port's malformed count
(R1). A stale frame is dropped whole and counted in its NODE entry and part-wide (R6, R8). A frame that is
processed leaves its NODE entry TRACKING with expected sequence q + 1 and one more frame accepted; a gap of
d frames adds 1 to gaps and d to missing frames and asks for a GAP record; no other NODE entry changes, and
of the rest of the part only what the frame's entries and marks reach (R6, R7). -/
def Obligations.NodeTrackingFollowsTheSequence : Prop :=
  ((∀ (s : State) (bytes payload : List Byte) (items : List ClassifierItem),
     s.classifier.inbox = .frame bytes :: items → payload = framePayload bytes →
     ¬ (1 ≤ frameSource bytes ∧ frameSource bytes ≤ 30 ∧ frameSource bytes ≠ s.ownNode
         ∧ 1 ≤ byteAt payload 2 ∧ byteAt payload 2 ≤ 32
         ∧ payload.length = 3 + 4 * byteAt payload 2) →
     exec .sampleFrameTaken s = .next { s with
       classifier := { s.classifier with inbox := items }
       fPort := { s.fPort with malformed := min (s.fPort.malformed + 1) 4294967295 } })
   ∧ ∀ (s : State) (bytes : List Byte) (items : List ClassifierItem) (f : SampleFrame) (n : Fin 30),
     s.classifier.inbox = .frame bytes :: items → PassesCheck s bytes f n →
     IsStaleFrame (s.classifier.nodes.get n) f.seq →
     exec .sampleFrameTaken s = .next { s with
       classifier := { s.classifier with
         inbox := items
         nodes := s.classifier.nodes.set n { s.classifier.nodes.get n with
           stale := min ((s.classifier.nodes.get n).stale + 1) 4294967295 }
         staleFrames := min (s.classifier.staleFrames + 1) 4294967295 } })
  ∧ (∀ (s : State) (bytes : List Byte) (items : List ClassifierItem) (f : SampleFrame) (n : Fin 30)
     (e : NodeEntry),
     s.classifier.inbox = .frame bytes :: items → PassesCheck s bytes f n →
     e = s.classifier.nodes.get n → ¬ IsStaleFrame e f.seq →
     ∃ t : State, exec .sampleFrameTaken s = .next t
       ∧ (t.classifier.nodes.get n).state = .tracking
       ∧ (t.classifier.nodes.get n).expected = (f.seq + 1) % 65536
       ∧ (t.classifier.nodes.get n).accepted = min (e.accepted + 1) 4294967295
       ∧ (t.classifier.nodes.get n).stale = e.stale
       ∧ (¬ RevealsGap e f.seq →
           (t.classifier.nodes.get n).gaps = e.gaps ∧ (t.classifier.nodes.get n).missing = e.missing
           ∧ t.events.requests = s.events.requests)
       ∧ (RevealsGap e f.seq →
           (t.classifier.nodes.get n).gaps = min (e.gaps + 1) 4294967295
           ∧ ((t.classifier.nodes.get n).missing : Int)
               = min ((e.missing : Int) + frameDistance e f.seq) 4294967295
           ∧ t.events.requests = s.events.requests
             ++ [{ requester := .classifier, kind := .gap, subject := n.val + 1, channel := none,
                   value := none, count := some (frameDistance e f.seq).toNat, time := s.timebase }])
       ∧ (∀ m, m ≠ n → t.classifier.nodes.get m = s.classifier.nodes.get m)
       ∧ t.classifier.inbox = items
       ∧ t.classifier.staleFrames = s.classifier.staleFrames
       ∧ t = { s with
           classifier := t.classifier
           slots := t.slots
           rules := t.rules
           rings := t.rings
           events := { s.events with requests := t.events.requests }
           egress := { s.egress with candidates := t.egress.candidates } })

/-- What a processed frame does to the channels and to their consumers: each channel takes the entries
with its key in their order, numbers them from its sample index, keeps the last value, and offers each to
every consumer that names it, behind one gap mark where the frame revealed a gap of its node; a consumer
takes what reaches it while it is enabled and misses the rest, and what earlier frames offered has passed by
one that is not enabled now (R7, R14, R15, R16, R20, R22, R25; assumption 9). The value of a code: UNSIGNED gives the code itself, SIGNED gives a code
below 8,388,608 itself and any other code less 16,777,216, so that the value lies in the format's range and
is the code modulo 2^24 (R2). -/
def Obligations.SamplesAreNumberedAndOffered : Prop :=
  (∀ code : Nat, code < 16777216 →
    sampleValue .unsigned code = code
    ∧ (code < 8388608 → sampleValue .signed code = code)
    ∧ (8388608 ≤ code → sampleValue .signed code = (code : Int) - 16777216)
    ∧ -8388608 ≤ sampleValue .signed code ∧ sampleValue .signed code ≤ 8388607
    ∧ sampleValue .signed code % 16777216 = code)
  ∧ ∀ (s : State) (bytes : List Byte) (items : List ClassifierItem) (f : SampleFrame) (n : Fin 30)
    (marked : Fin 64 → Bool),
    s.classifier.inbox = .frame bytes :: items → PassesCheck s bytes f n →
    ¬ IsStaleFrame (s.classifier.nodes.get n) f.seq →
    (∀ c, (s.channel c).sampleIndex < 4294967296) →
    (∀ c, marked c = true ↔ RevealsGap (s.classifier.nodes.get n) f.seq
      ∧ (s.channel c).enabled = true ∧ (s.channel c).node = n.val + 1) →
    ∃ t : State, exec .sampleFrameTaken s = .next t
      ∧ (∀ c, t.channel c = { s.channel c with
          sampleIndex := ((s.channel c).sampleIndex + (takenBy s (n.val + 1) c f.entries).length)
            % 4294967296
          lastValue := match (takenBy s (n.val + 1) c f.entries).getLast? with
            | some e => some (sampleValue (s.channel c).format e.code)
            | none => (s.channel c).lastValue
          gapMarks := if marked c = true then min ((s.channel c).gapMarks + 1) 65535
            else (s.channel c).gapMarks })
      ∧ ChannelsGave s t (fun c =>
          (if marked c = true then [.mark] else [])
            ++ samplesFrom (s.channel c).format (s.channel c).sampleIndex
              (takenBy s (n.val + 1) c f.entries))

/-- A processed frame is handed on as a forward candidate of the entries that its channels' policies and
the unknown-channel policy keep, in their order and with their codes, or not at all where none is kept
(R17, R18, R19). -/
def Obligations.KeptEntriesMakeTheForwardCandidate : Prop :=
  ∀ (s : State) (bytes : List Byte) (items : List ClassifierItem) (f : SampleFrame) (n : Fin 30),
    s.classifier.inbox = .frame bytes :: items → PassesCheck s bytes f n →
    ¬ IsStaleFrame (s.classifier.nodes.get n) f.seq →
    (∀ c, (s.channel c).sampleIndex < 4294967296) →
    ∃ t : State, exec .sampleFrameTaken s = .next t
      ∧ t.egress.candidates = s.egress.candidates
        ++ (if entriesKept s (n.val + 1) [] f.entries = [] then []
          else [{ f with entries := entriesKept s (n.val + 1) [] f.entries }])

/-- The F-port leaving UP: one gap mark in the stream of every enabled channel, counted there, and every
NODE entry UNSEEN with expected sequence 0 and its counts kept; no event is requested (R21, R22). What the
channels offered before has passed by consumers that are not enabled (assumption 9). -/
def Obligations.FieldLossMarksEveryChannel : Prop :=
  ∀ (s : State) (items : List ClassifierItem), s.classifier.inbox = .portLeftUp :: items →
    ∃ t : State, exec .fPortLeavingUpClassifier s = .next t
      ∧ (∀ n, t.classifier.nodes.get n
          = { s.classifier.nodes.get n with state := .unseen, expected := 0 })
      ∧ (∀ c, t.channel c = { s.channel c with
          gapMarks := if (s.channel c).enabled = true then min ((s.channel c).gapMarks + 1) 65535
            else (s.channel c).gapMarks })
      ∧ ChannelsGave s t (fun c => if (s.channel c).enabled = true then [.mark] else [])
      ∧ t.classifier.inbox = items ∧ t.classifier.staleFrames = s.classifier.staleFrames
      ∧ t = { s with classifier := t.classifier, slots := t.slots, rules := t.rules, rings := t.rings }

/-! ### Forwarded frames (section 8.2) -/

/-- A SAMPLE frame read and rebuilt with all its entries is the frame that arrived, byte for byte, and a
frame rebuilt from a candidate reads back as that candidate and passes the port's CRC and length checks
(R151, section 10.2). -/
def Obligations.SampleFramesRoundTrip : Prop :=
  (∀ (bytes : List Byte) (f : SampleFrame), crcGood bytes = true → lengthGood bytes = true →
    readSampleFrame bytes = some f → f.rebuild = bytes)
  ∧ ∀ f : SampleFrame, f.seq < 65536 → 1 ≤ f.entries.length → f.entries.length ≤ 32 →
    (∀ e ∈ f.entries, e.input < 256 ∧ e.code < 16777216) →
    readSampleFrame f.rebuild = some f ∧ crcGood f.rebuild = true ∧ lengthGood f.rebuild = true
      ∧ f.rebuild.length = 9 + 4 * f.entries.length


/-! ### Reducer slots (chapter 2) -/

/-- SLOT_TAKE_SAMPLE. In IDLE the sample is only taken from the stream (R35), and a slot that is OFF misses
it (R16, R25). In ACCUM it is added to the
partial window: a new one at count 0, else sum, largest and smallest (R28). The N-th sample completes the
window: the slot goes to ACCUM or IDLE by its trigger with count 0, its output index advances, its
after-gap flag is cleared, and the record, with its present output index and the arithmetic of its mode,
goes to its consumers and, when to egress is set, to the assembler; what the slot
offered before has then passed by consumers that are not enabled (R29 to R34; assumption 9). -/
def Obligations.SlotTakesSample : Prop :=
  ∀ (k : Fin 16) (s : State) (x : Slot) (v : Int) (i : Nat) (items : List StreamItem) (w : Window),
    x = s.slots.get k → x.inbox = .sample v i :: items →
    w = (match x.window with
      | none => { sum := v, max := v, min := v, firstIndex := i }
      | some u => { sum := u.sum + v, max := max u.max v, min := min u.min v,
                    firstIndex := u.firstIndex }) →
    (x.state = .idle ∨ x.state = .off →
      exec (.slotTakeSample k) s = .next (s.setSlot k { x with inbox := items }))
    ∧ (x.state = .accum → x.count + 1 < 2 ^ x.exponent →
      exec (.slotTakeSample k) s
        = .next (s.setSlot k { x with inbox := items, count := x.count + 1, window := some w }))
    ∧ (x.state = .accum → 2 ^ x.exponent ≤ x.count + 1 →
      ∃ (t : State) (r : OutputRecord), exec (.slotTakeSample k) s = .next t
        ∧ r = { slot := k
                mode := x.mode
                outputIndex := x.outputIndex
                firstIndex := w.firstIndex
                data := if x.mode = .mean then .value (w.sum / 2 ^ x.exponent)
                  else if x.mode = .enhance then .value (w.sum / 2 ^ (x.exponent / 2))
                  else .peak w.max w.min
                time := s.timebase
                afterGap := x.afterGap }
        ∧ t.slots = s.slots.set k { x with
            inbox := items
            state := if x.trigger = .continuous then .accum else .idle
            count := 0
            window := none
            outputIndex := (x.outputIndex + 1) % 4294967296
            afterGap := false }
        ∧ SlotGave s t k (.record r)
        ∧ t.egress.records = s.egress.records ++ (if x.toEgress = true then [r] else [])
        ∧ t = { s with slots := t.slots, rules := t.rules, rings := t.rings,
                       egress := { s.egress with records := t.egress.records } })

/-- The output arithmetic on a window of 2^e values: its sum, largest and smallest value are those of the
values. MEAN gives the sum divided by 2^e, rounded toward minus infinity, which lies between the smallest
and the largest value (R30). ENHANCE, for even e, gives the sum divided by 2^(e/2), rounded in the same
way, which lies between 2^(e/2) times the lowest and the highest value of the format (R31) and is a signed
32-bit value. PEAK gives the largest and the smallest value, which are equal exactly when all values are
(R32). -/
def Obligations.OutputArithmetic : Prop :=
  ∀ (e : Nat) (v : Int) (vs : List Int) (i : Nat) (f : Format) (w : Window) (lo hi : Int),
    1 ≤ e → e ≤ 8 → (v :: vs).length = 2 ^ e →
    (lo, hi) = (match f with
      | .signed => (-8388608, 8388607)
      | .unsigned => (0, 16777215)) →
    (∀ u ∈ v :: vs, lo ≤ u ∧ u ≤ hi) →
    w = vs.foldl Window.add (Window.first v i) →
    w.sum = (v :: vs).sum ∧ w.firstIndex = i
    ∧ w.max ∈ v :: vs ∧ w.min ∈ v :: vs ∧ (∀ u ∈ v :: vs, w.min ≤ u ∧ u ≤ w.max)
    ∧ (∃ q : Int, w.output .mean e = .value q
        ∧ q * 2 ^ e ≤ (v :: vs).sum ∧ (v :: vs).sum < (q + 1) * 2 ^ e
        ∧ w.min ≤ q ∧ q ≤ w.max ∧ lo ≤ q ∧ q ≤ hi)
    ∧ (e % 2 = 0 → ∃ q : Int, w.output .enhance e = .value q
        ∧ q * 2 ^ (e / 2) ≤ (v :: vs).sum ∧ (v :: vs).sum < (q + 1) * 2 ^ (e / 2)
        ∧ lo * 2 ^ (e / 2) ≤ q ∧ q ≤ hi * 2 ^ (e / 2) ∧ -2147483648 ≤ q ∧ q ≤ 2147483647)
    ∧ w.output .peak e = .peak w.max w.min ∧ w.min ≤ w.max ∧ lo ≤ w.min ∧ w.max ≤ hi
    ∧ (w.max = w.min ↔ ∀ u ∈ vs, u = v)

/-- SLOT_TAKE_GAP_MARK. In ACCUM with a count of 1 or more the mark breaks the window: it is discarded
and counted, a SLOT_BROKEN record is asked for when notify broken is set, and the slot goes to ACCUM or
IDLE by its trigger with count 0 (R38, R40). In IDLE, and in ACCUM with count 0, only the after-gap flag
is set (R39). In both cases one mark is passed on to the slot's consumers; what the slot offered before has
then passed by those of them that are not enabled (assumption 9). A slot that is OFF misses the mark (R16,
R25). -/
def Obligations.SlotTakesGapMark : Prop :=
  (∀ (k : Fin 16) (s : State) (items : List StreamItem),
    (s.slots.get k).inbox = .mark :: items → (s.slots.get k).state = .off →
    exec (.slotTakeGapMark k) s = .next (s.setSlot k { s.slots.get k with inbox := items }))
  ∧ ∀ (k : Fin 16) (s : State) (x : Slot) (items : List StreamItem) (broken : Bool),
    x = s.slots.get k → x.inbox = .mark :: items → x.state ≠ .off →
    broken = decide (x.state = .accum ∧ 1 ≤ x.count) →
    ∃ t : State, exec (.slotTakeGapMark k) s = .next t
      ∧ t.slots = s.slots.set k (if broken = true then
          { x with
            inbox := items
            state := if x.trigger = .continuous then .accum else .idle
            count := 0
            window := none
            brokenWindows := min (x.brokenWindows + 1) 4294967295
            afterGap := true }
        else { x with inbox := items, afterGap := true })
      ∧ t.events.requests = s.events.requests
        ++ (if broken = true ∧ x.notifyBroken = true then
            [{ requester := .slot k, kind := .slotBroken, subject := k.val, channel := some x.channel,
               value := none, count := some x.count, time := s.timebase }]
          else [])
      ∧ SlotGave s t k .mark
      ∧ t = { s with slots := t.slots, rules := t.rules, rings := t.rings,
                     events := { s.events with requests := t.events.requests } }

/-- A START from a rule (SLOT_START) and the START_SLOT request. A START is taken by an enabled GATED
slot in IDLE, which goes to ACCUM with count 0 and an empty window; any other slot is unchanged by a
rule's START (R36). START_SLOT: a slot number above 15 is BAD_VALUE, a slot that takes no START is STATE,
and else the START is taken and the reply is OK (R37). -/
def Obligations.StartOpensWindow : Prop :=
  (∀ (k : Fin 16) (s : State) (x : Slot) (n : Nat), x = s.slots.get k → x.starts = n + 1 →
    exec (.slotStart k) s = .next (s.setSlot k
      (if x.enabled = true ∧ x.trigger = .gated ∧ x.state = .idle then
        { x with starts := n, state := .accum, count := 0, window := none }
      else { x with starts := n })))
  ∧ ∀ (s : State) (q : Request) (b : Byte), Executes s q 0x0F → q.args = [b] →
    (16 ≤ b.toNat → exec .startSlot s = .next (answered s q .badValue []))
    ∧ ∀ (k : Fin 16) (x : Slot), k.val = b.toNat → x = s.slots.get k →
      (¬ (x.enabled = true ∧ x.trigger = .gated ∧ x.state = .idle) →
        exec .startSlot s = .next (answered s q .state []))
      ∧ (x.enabled = true ∧ x.trigger = .gated ∧ x.state = .idle →
        exec .startSlot s = .next (answered
          (s.setSlot k { x with state := .accum, count := 0, window := none }) q .ok []))

/-! ### Watch rules (chapter 3) -/

/-- RULE_TAKE_VALUE at an enabled rule. A STEP rule with no previous value evaluates nothing: the value
becomes its previous value (R48). Else the rule takes one step of its watch machine by the condition it
evaluates in its state (R49, R51), the value becomes its previous value (R48), and a step into ACTIVE
from CLEAR or PENDING asserts: one more assert with its time mark, a RULE_ASSERT request when event on
assert is set, FREEZE to the freeze ring and START to the start slot it names (R54, R55, R56, R57); a
step into CLEAR from ACTIVE or LEAVING releases, with a RULE_RELEASE request when event on release is
set (R58). A disabled rule misses the item (R16, R44). -/
def Obligations.RuleStepsWatchMachine : Prop :=
  (∀ (k : Fin 32) (s : State) (item : StreamItem) (items : List StreamItem),
    (s.rules.get k).inbox = item :: items → item ≠ .mark → (s.rules.get k).enabled = false →
    exec (.ruleTakeValue k) s = .next (s.setRule k { s.rules.get k with inbox := items }))
  ∧ ∀ (k : Fin 32) (s : State) (r : Rule) (item : StreamItem) (items : List StreamItem) (v : Int)
    (i : Nat),
    r = s.rules.get k → r.inbox = item :: items → TakesValue r item v i →
    r.enabled = true → r.state ≠ .off →
    (r.criterion = .step ∧ r.previous = none →
      exec (.ruleTakeValue k) s
        = .next (s.setRule k { r with inbox := items, previous := some v }))
    ∧ (∀ (met asserts releases : Bool) (after : RuleState × Nat) (channel : Fin 64),
      ¬ (r.criterion = .step ∧ r.previous = none) →
      (met = true ↔ Qualifies r v (r.previous.getD 0)) →
      after = watchStep r.state r.runCount r.persistence (met = true) →
      asserts = decide ((r.state = .clear ∨ r.state = .pending) ∧ after.1 = .active) →
      releases = decide ((r.state = .active ∨ r.state = .leaving) ∧ after.1 = .clear) →
      channel = (match r.source with
        | some (.slot j) => (s.slots.get j).channel
        | _ => r.sourceIndex) →
      ∃ t : State, exec (.ruleTakeValue k) s = .next t
        ∧ t.rules = s.rules.set k { r with
            inbox := items
            state := after.1
            runCount := after.2
            previous := some v
            asserts := if asserts = true then min (r.asserts + 1) 4294967295 else r.asserts
            lastAssert := if asserts = true then some s.timebase else r.lastAssert }
        ∧ t.events.requests = s.events.requests
          ++ (if asserts = true ∧ r.eventOnAssert = true then
              [{ requester := .rule k, kind := .ruleAssert, subject := k.val, channel := some channel,
                 value := some v, count := some i, time := s.timebase }]
            else if releases = true ∧ r.eventOnRelease = true then
              [{ requester := .rule k, kind := .ruleRelease, subject := k.val, channel := some channel,
                 value := some v, count := some i, time := s.timebase }]
            else [])
        ∧ (∀ g, t.rings.get g = { s.rings.get g with freezes := (s.rings.get g).freezes
          ++ (if asserts = true ∧ r.freezeRing = some g then [k] else []) })
        ∧ (∀ j, t.slots.get j = { s.slots.get j with starts := (s.slots.get j).starts
          + (if asserts = true ∧ r.startSlot = some j then 1 else 0) })
        ∧ t = { s with rules := t.rules, rings := t.rings, slots := t.slots,
                       events := { s.events with requests := t.events.requests } })

/-- Under the consistency conditions no value meets both conditions of a rule; with HYST 0 each condition
is the complement of the other (R45, R49, R50). -/
def Obligations.AssertAndReleaseExclude : Prop :=
  ∀ (r : Rule) (v previous : Int),
    (ConsistentRule r →
      ¬ (r.assertCondition v previous = true ∧ r.releaseCondition v previous = true))
    ∧ (r.hyst = 0 → (r.assertCondition v previous = true ↔ r.releaseCondition v previous = false))
    ∧ (r.assertCondition v previous = true ↔ Asserts r v previous)
    ∧ (r.releaseCondition v previous = true ↔ Releases r v previous)
    ∧ (r.consistent = true ↔ ConsistentRule r)

/-- RULE_TAKE_GAP_MARK at an enabled rule: CLEAR stays CLEAR, PENDING becomes CLEAR, ACTIVE stays ACTIVE,
LEAVING becomes ACTIVE, each with count 0 and with the previous value absent. Nothing else changes: no
event is requested, no FREEZE or START is sent, and the asserts count and last assert time are kept. A
second mark changes nothing more, and a STEP rule then only takes the next value as its previous value
(R53). A disabled rule misses the mark (R16, R44). -/
def Obligations.RuleTakesGapMark : Prop :=
  (∀ (k : Fin 32) (s : State) (items : List StreamItem),
    (s.rules.get k).inbox = .mark :: items → (s.rules.get k).enabled = false →
    exec (.ruleTakeGapMark k) s = .next (s.setRule k { s.rules.get k with inbox := items }))
  ∧ ∀ (k : Fin 32) (s : State) (r y : Rule) (items : List StreamItem),
    r = s.rules.get k → r.inbox = .mark :: items → r.enabled = true → r.state ≠ .off →
    y = { r with
      inbox := items
      state := if r.state = .clear ∨ r.state = .pending then .clear else .active
      runCount := 0
      previous := none } →
    exec (.ruleTakeGapMark k) s = .next (s.setRule k y)
    ∧ (∀ more, items = .mark :: more →
      exec (.ruleTakeGapMark k) (s.setRule k y) = .next (s.setRule k { y with inbox := more }))
    ∧ ∀ v i more, items = .sample v i :: more → r.criterion = .step →
      exec (.ruleTakeValue k) (s.setRule k y)
        = .next (s.setRule k { y with inbox := more, previous := some v })

/-! ### Capture memory and rings (chapter 4) -/

/-- RING_TAKE_ITEM at an enabled STREAM ring. FILLING: the words are written at the half's next offsets
and every other word is kept; below L/2 that is all, and at L/2 the half is closed in the same event, with
its requests (R71, R74, R75, R89). STALLED: nothing is written and each word counts as dropped (R76). A
disabled ring, of either mode, misses the item (R16, R69). -/
def Obligations.StreamRingTakesWords : Prop :=
  (∀ (k : Fin 8) (s : State) (item : StreamItem) (items : List StreamItem),
    (s.rings.get k).inbox = item :: items → item ≠ .mark → (s.rings.get k).enabled = false →
    exec (.ringTakeItem k) s = .next (s.setRing k { s.rings.get k with inbox := items }))
  ∧ ∀ (k : Fin 8) (s : State) (r : Ring) (item : StreamItem) (items : List StreamItem) (ws : List Int),
    s.memory.wf = true → r = s.rings.get k → r.inbox = item :: items → r.enabled = true →
    r.mode = .stream →
    ((∃ v i, item = .sample v i ∧ ws = [v])
      ∨ ∃ o : OutputRecord, item = .record o
        ∧ ((∃ v, o.data = .value v ∧ ws = [v]) ∨ ∃ u v, o.data = .peak u v ∧ ws = [u, v])) →
    (∀ h, r.stream.writer = .stalled h →
      exec (.ringTakeItem k) s = .next (s.setRing k
        { r with inbox := items, dropped := min (r.dropped + ws.length) 4294967295 }))
    ∧ ∀ (h : HalfId) (start : Nat) (filled : Ring),
      r.stream.writer = .filling h → (r.stream.half h.other).state ≠ .filling →
      start = r.base + (if h = .a then 0 else r.length / 2) + (r.stream.half h).fill →
      start + ws.length ≤ 65536 →
      filled = { r with inbox := items, stream := r.stream.setHalf h { r.stream.half h with
        fill := (r.stream.half h).fill + ws.length } } →
      ∃ (t : State) (y : Ring), exec (.ringTakeItem k) s = .next t
        ∧ (∀ o, t.memory.read o
            = if start ≤ o ∧ o < start + ws.length then ws.getD (o - start) 0 else s.memory.read o)
        ∧ ((r.stream.half h).fill + ws.length < r.length / 2 → y = filled
            ∧ t.events.requests = s.events.requests)
        ∧ (r.length / 2 ≤ (r.stream.half h).fill + ws.length → HalfClosed filled y h
            ∧ t.events.requests = s.events.requests ++ closingRequests k filled h s.timebase)
        ∧ t = { s.setRing k y with
            memory := t.memory, events := { s.events with requests := t.events.requests } }

/-- RING_TAKE_ITEM at an enabled SNAPSHOT ring. RUN and COUNTDOWN: the words are written at the write
position and after it, round the range, every other word is kept, and the position and valid length
follow; in COUNTDOWN remaining falls with them, to 0 at least, and at 0 the ring goes FROZEN in the same
event with its capture record and request (R82, R84, R85, R89). FROZEN and READING: nothing is written
and nothing changes (R86). -/
def Obligations.SnapshotRingTakesWords : Prop :=
  ∀ (k : Fin 8) (s : State) (r : Ring) (item : StreamItem) (items : List StreamItem) (ws : List Int),
    s.memory.wf = true → r = s.rings.get k → r.inbox = item :: items → r.enabled = true →
    r.mode = .snapshot →
    ((∃ v i, item = .sample v i ∧ ws = [v])
      ∨ ∃ o : OutputRecord, item = .record o
        ∧ ((∃ v, o.data = .value v ∧ ws = [v]) ∨ ∃ u v, o.data = .peak u v ∧ ws = [u, v])) →
    (r.snapshot.state = .frozen ∨ r.snapshot.state = .reading →
      exec (.ringTakeItem k) s = .next (s.setRing k { r with inbox := items }))
    ∧ ∀ written : Ring,
      128 ≤ r.length → r.base + r.length ≤ 65536 → r.snapshot.position < r.length →
      written = { r with inbox := items, snapshot := { r.snapshot with
        position := (r.snapshot.position + ws.length) % r.length
        valid := min (r.snapshot.valid + ws.length) r.length
        remaining := if r.snapshot.state = .countdown then r.snapshot.remaining - ws.length
          else r.snapshot.remaining } } →
      (r.snapshot.state = .run ∨ r.snapshot.state = .countdown ∧ r.snapshot.pending ≠ none) →
      ∃ (t : State) (y : Ring), exec (.ringTakeItem k) s = .next t
        ∧ (∀ j, j < ws.length →
            t.memory.read (r.base + (r.snapshot.position + j) % r.length) = ws.getD j 0)
        ∧ (∀ o, (∀ j, j < ws.length → o ≠ r.base + (r.snapshot.position + j) % r.length) →
            t.memory.read o = s.memory.read o)
        ∧ (r.snapshot.state = .run ∨ ws.length < r.snapshot.remaining →
            y = written ∧ t.events.requests = s.events.requests)
        ∧ (∀ p, r.snapshot.state = .countdown → r.snapshot.pending = some p →
            r.snapshot.remaining ≤ ws.length →
            WentFrozen written y p s.timebase ∧ t.events.requests
              = s.events.requests ++ frozenRequests k written p.trigger s.timebase)
        ∧ t = { s.setRing k y with
            memory := t.memory, events := { s.events with requests := t.events.requests } }

/-- RING_TAKE_GAP_MARK at an enabled ring: it writes no word. A STREAM ring sets the gapped flag of the
half it is filling, or its held-mark flag while STALLED (R77). A SNAPSHOT ring sets its gapped flag in RUN
and COUNTDOWN (R87) and ignores the mark in FROZEN and READING (R86). A disabled ring misses the mark
(R16, R69). -/
def Obligations.RingTakesGapMark : Prop :=
  (∀ (k : Fin 8) (s : State) (items : List StreamItem),
    (s.rings.get k).inbox = .mark :: items → (s.rings.get k).enabled = false →
    exec (.ringTakeGapMark k) s = .next (s.setRing k { s.rings.get k with inbox := items }))
  ∧ ∀ (k : Fin 8) (s : State) (r : Ring) (items : List StreamItem),
    r = s.rings.get k → r.inbox = .mark :: items → r.enabled = true →
    (∀ h, r.mode = .stream → r.stream.writer = .filling h →
      exec (.ringTakeGapMark k) s = .next (s.setRing k { r with
        inbox := items
        stream := r.stream.setHalf h { r.stream.half h with gapped := true } }))
    ∧ (∀ h, r.mode = .stream → r.stream.writer = .stalled h →
      exec (.ringTakeGapMark k) s = .next (s.setRing k { r with
        inbox := items
        stream := { r.stream with heldMark := true } }))
    ∧ (r.mode = .snapshot → r.snapshot.state = .run ∨ r.snapshot.state = .countdown →
      exec (.ringTakeGapMark k) s = .next (s.setRing k { r with
        inbox := items
        snapshot := { r.snapshot with gapped := true } }))
    ∧ (r.mode = .snapshot → r.snapshot.state = .frozen ∨ r.snapshot.state = .reading →
      exec (.ringTakeGapMark k) s = .next (s.setRing k { r with inbox := items }))

/-- A FREEZE from a rule (RING_FREEZE) and the FREEZE_RING request at an enabled SNAPSHOT ring in RUN:
the trigger with its time mark is pending and remaining is the post count; with a post count of 0 the ring
goes FROZEN at once (R83, R85). Any other ring ignores a rule's FREEZE (R83). FREEZE_RING: a ring number
above 7 is BAD_VALUE, a disabled ring STATE, a STREAM ring BAD_VALUE, a ring not in RUN STATE (R83). -/
def Obligations.FreezeStartsCountdown : Prop :=
  (∀ (k : Fin 8) (j : Fin 32) (s : State) (r z : Ring), r = s.rings.get k → j ∈ r.freezes →
    z = { r with freezes := r.freezes.erase j } →
    (¬ (r.enabled = true ∧ r.mode = .snapshot ∧ r.snapshot.state = .run) →
      exec (.ringFreeze k j) s = .next (s.setRing k z))
    ∧ (r.enabled = true ∧ r.mode = .snapshot ∧ r.snapshot.state = .run → r.postCount ≠ 0 →
      exec (.ringFreeze k j) s = .next (s.setRing k { z with snapshot := { r.snapshot with
        state := .countdown, pending := some ⟨.rule j, s.timebase⟩, remaining := r.postCount } }))
    ∧ (r.enabled = true ∧ r.mode = .snapshot ∧ r.snapshot.state = .run → r.postCount = 0 →
      ∃ y, WentFrozen z y ⟨.rule j, s.timebase⟩ s.timebase
        ∧ exec (.ringFreeze k j) s = .next { s.setRing k y with events := { s.events with
            requests := s.events.requests ++ frozenRequests k z (.rule j) s.timebase } }))
  ∧ ∀ (s : State) (q : Request) (b : Byte), Executes s q 0x0D → q.args = [b] →
    (8 ≤ b.toNat → exec .freezeRing s = .next (answered s q .badValue []))
    ∧ ∀ (k : Fin 8) (r : Ring), k.val = b.toNat → r = s.rings.get k →
      (r.enabled = false → exec .freezeRing s = .next (answered s q .state []))
      ∧ (r.enabled = true → r.mode = .stream →
        exec .freezeRing s = .next (answered s q .badValue []))
      ∧ (r.enabled = true → r.mode = .snapshot → r.snapshot.state ≠ .run →
        exec .freezeRing s = .next (answered s q .state []))
      ∧ (r.enabled = true → r.mode = .snapshot → r.snapshot.state = .run → r.postCount ≠ 0 →
        exec .freezeRing s = .next (answered (s.setRing k { r with snapshot := { r.snapshot with
          state := .countdown, pending := some ⟨.manual, s.timebase⟩, remaining := r.postCount } })
          q .ok []))
      ∧ (r.enabled = true → r.mode = .snapshot → r.snapshot.state = .run → r.postCount = 0 →
        ∃ y, WentFrozen r y ⟨.manual, s.timebase⟩ s.timebase
          ∧ exec .freezeRing s = .next (answered { s.setRing k y with events := { s.events with
              requests := s.events.requests ++ frozenRequests k r .manual s.timebase } } q .ok []))

/-! ### The event unit (chapter 6) -/

/-- EVENT_ENQUEUE takes the oldest request of a requester: R58, R89 and R175 order the requests of a rule, a
ring and a port, and for the slots and the classifier that order is the model's reading (assumption 21).
With fewer than 128 records queued and no loss
pending, its record joins the tail UNSENT with the next serial; with 128 it is lost and counted in both
loss counts; with a free place and a loss pending, a LOSS record of that count is queued before it (R105,
R107, R109, R110, R111). -/
def Obligations.EventUnitQueuesRequests : Prop :=
  ∀ (s : State) (q : EventRequest) (before after : List EventRequest) (u : EventUnit)
    (record : Nat → EventRecord),
    s.events.requests = before ++ q :: after → (∀ x ∈ before, x.requester ≠ q.requester) →
    u = { s.events with requests := before ++ after } → s.events.serial < 65536 →
    (∀ n, record n = { serial := n, kind := q.kind, subject := q.subject, channel := q.channel,
                       value := q.value, count := q.count, time := q.time, sent := .unsent }) →
    (u.queue.length < 128 → u.pendingLoss = 0 →
      exec (.eventEnqueue q.requester) s = .next { s with events := { u with
        queue := u.queue ++ [record u.serial], serial := (u.serial + 1) % 65536 } })
    ∧ (128 ≤ u.queue.length →
      exec (.eventEnqueue q.requester) s = .next { s with events := { u with
        pendingLoss := min (u.pendingLoss + 1) 4294967295
        lifetimeLoss := min (u.lifetimeLoss + 1) 4294967295 } })
    ∧ (u.queue.length < 127 → u.pendingLoss ≠ 0 →
      exec (.eventEnqueue q.requester) s = .next { s with events := { u with
        queue := u.queue
          ++ [{ serial := u.serial, kind := .loss, subject := 0, channel := none, value := none,
                count := some u.pendingLoss, time := s.timebase, sent := .unsent },
              record ((u.serial + 1) % 65536)]
        serial := (u.serial + 2) % 65536
        pendingLoss := 0 } })
    ∧ (u.queue.length = 127 → u.pendingLoss ≠ 0 →
      exec (.eventEnqueue q.requester) s = .next { s with events := { u with
        queue := u.queue
          ++ [{ serial := u.serial, kind := .loss, subject := 0, channel := none, value := none,
                count := some u.pendingLoss, time := s.timebase, sent := .unsent }]
        serial := (u.serial + 1) % 65536
        pendingLoss := 1
        lifetimeLoss := min (u.lifetimeLoss + 1) 4294967295 } })

/-- RETRANSMIT_TIMEOUT at the timer's expiry: the retry count rises; past the retry limit delivery is
FAILED with the SENT records kept, else every SENT record is UNSENT again; the timer stops (R118).
DELIVERY_SUSPEND: delivery is SUSPENDED, every record UNSENT, the timer stopped, the retry count 0.
DELIVERY_RESUME: the same with delivery ACTIVE, from SUSPENDED (R114). -/
def Obligations.DeliveryFollowsTimerAndLink : Prop :=
  ∀ (s : State) (allUnsent : List EventRecord),
    allUnsent = s.events.queue.map (fun r => { r with sent := .unsent }) →
    (s.events.timer = .running 0 →
      exec .retransmitTimeout s = .next { s with events :=
        if s.management.global.retryLimit < s.events.retry + 1 then
          { s.events with retry := s.events.retry + 1, timer := .stopped, delivery := .failed }
        else { s.events with retry := s.events.retry + 1, timer := .stopped, queue := allUnsent } })
    ∧ (∀ xs, s.events.linkChanges = .leftUp :: xs →
      exec .deliverySuspend s = .next { s with events := { s.events with
        linkChanges := xs, delivery := .suspended, queue := allUnsent, timer := .stopped,
        retry := 0 } })
    ∧ (∀ xs, s.events.linkChanges = .cameUp :: xs → s.events.delivery = .suspended →
      exec .deliveryResume s = .next { s with events := { s.events with
        linkChanges := xs, delivery := .active, queue := allUnsent, timer := .stopped,
        retry := 0 } })

/-- The EVENT frame of an EV grant: of a queue of SENT records followed by UNSENT ones, the oldest
UNSENT, at most 4 and at most what the window leaves, are sent and become SENT; a stopped timer starts
with the retransmit timeout, a running one goes on (R108, R115, R116). -/
def Obligations.EventFrameCarriesOldestUnsent : Prop :=
  ∀ (s : State) (sent unsent : List EventRecord) (n : Nat),
    s.cPort.link = .up → s.cPort.sending = none → s.cPort.paused = false → s.egress.held = false →
    s.egress.cChanges = [] → s.egress.mr = [] → s.events.delivery = .active →
    s.events.queue = sent ++ unsent → (∀ r ∈ sent, r.sent = .sent) → (∀ r ∈ unsent, r.sent = .unsent) →
    unsent ≠ [] → sent.length < s.management.global.eventWindow →
    n = min 4 (min (s.management.global.eventWindow - sent.length) unsent.length) →
    1 ≤ n ∧ ∃ t : State, exec .arbiterGrant s = .next t
      ∧ t.events.queue
          = sent ++ (unsent.take n).map (fun r => { r with sent := .sent }) ++ unsent.drop n
      ∧ (s.events.timer = .stopped →
          t.events.timer = .running (s.management.global.retransmitTimeout * 1000))
      ∧ (∀ left, s.events.timer = .running left → t.events.timer = .running left)
      ∧ t.cPort.sending = some (eventFrame s.ownNode (unsent.take n))
      ∧ t = { s with
          events := { s.events with queue := t.events.queue, timer := t.events.timer }
          cPort := { s.cPort with
            sending := some (eventFrame s.ownNode (unsent.take n))
            line := s.cPort.line ++ [.frameBegun (eventFrame s.ownNode (unsent.take n))] } }

/-- The frames the part forms are frames a port accepts: destination 0, its own node id as source, flags
0, the length of their payload and its CRC (R176). The payloads of REPLY, EVENT, REDUCED and READOUT, byte
by byte (sections 10.3 and 10.4), and the 18 bytes of an event record and of a reduced record, in which
each field reads back (section 10.4, R178). -/
def Obligations.FormedFramesReadBack : Prop :=
  (∀ (kind own : Nat) (payload : List Byte), 1 ≤ kind → kind ≤ 8 → own < 32 → payload.length ≤ 252 →
    Accepted (formFrame kind own payload)
    ∧ byteAt (formFrame kind own payload) 0 = kind * 16
    ∧ frameDest (formFrame kind own payload) = 0 ∧ frameSource (formFrame kind own payload) = own
    ∧ framePayload (formFrame kind own payload) = payload
    ∧ (formFrame kind own payload).length = payload.length + 6)
  ∧ (∀ r : EventRecord, r.serial < 65536 → r.subject < 256 → r.time < 4294967296 →
    (∀ n, r.count = some n → n < 4294967296) →
    (∀ v, r.value = some v → -2147483648 ≤ v ∧ v ≤ 2147483647) →
    r.bytes.length = 18
    ∧ read2 r.bytes 0 = r.serial
    ∧ byteAt r.bytes 2 = (match r.kind with
      | .started => 1
      | .linkState => 2
      | .gap => 3
      | .slotBroken => 4
      | .ruleAssert => 5
      | .ruleRelease => 6
      | .halfFull => 7
      | .halfLost => 8
      | .ringFrozen => 9
      | .loss => 10)
    ∧ byteAt r.bytes 3 = r.subject
    ∧ byteAt r.bytes 4 = (match r.channel with
      | some c => c.val
      | none => 255)
    ∧ byteAt r.bytes 5 = (if r.value = none then 0 else 1) + (if r.count = none then 0 else 2)
    ∧ read4 r.bytes 6 = r.time ∧ readSigned4 r.bytes 10 = r.value.getD 0
    ∧ read4 r.bytes 14 = r.count.getD 0)
  ∧ (∀ (r : OutputRecord) (a : Int), r.outputIndex < 4294967296 → r.firstIndex < 4294967296 →
    r.time < 4294967296 → -2147483648 ≤ a → a ≤ 2147483647 →
    (r.data = .value a ∨ ∃ b, r.data = .peak a b ∧ -2147483648 ≤ b ∧ b ≤ 2147483647) →
    r.bytes.length = 18 ∧ byteAt r.bytes 0 = r.slot.val
    ∧ byteAt r.bytes 1 % 4 = (match r.mode with
      | .mean => 0
      | .enhance => 1
      | .peak => 2)
    ∧ byteAt r.bytes 1 / 4 = (if r.afterGap = true then 1 else 0)
    ∧ read4 r.bytes 2 = r.outputIndex ∧ readSigned4 r.bytes 6 = a
    ∧ (r.data = .value a → read4 r.bytes 10 = r.firstIndex)
    ∧ (∀ b, r.data = .peak a b → readSigned4 r.bytes 10 = b)
    ∧ read4 r.bytes 14 = r.time)
  ∧ (∀ (own : Nat) (r : Reply), ∃ p : List Byte, r.bytes own = formFrame 4 own p
    ∧ p.length = 4 + r.results.length
    ∧ byteAt p 0 = r.tag.toNat ∧ byteAt p 1 = r.number.toNat ∧ byteAt p 2 = r.code.toNat
    ∧ byteAt p 3 = (match r.status with
      | .ok => 0x00
      | .accepted => 0x01
      | .busy => 0x02
      | .state => 0x03
      | .badValue => 0x04
      | .badTable => 0x05
      | .liveField => 0x06
      | .duplicateKey => 0x07
      | .dependent => 0x08
      | .overlap => 0x09
      | .badLength => 0x0A
      | .unknownRequest => 0x0B)
    ∧ p.drop 4 = r.results)
  ∧ (∀ (own : Nat) (first : EventRecord) (more : List EventRecord) (n : Nat), first.serial < 65536 →
    n = more.length + 1 → n ≤ 4 → ∃ p : List Byte, eventFrame own (first :: more) = formFrame 5 own p
    ∧ p.length = 3 + 18 * n ∧ read2 p 0 = first.serial ∧ byteAt p 2 = n
    ∧ ∀ (j : Nat) (r : EventRecord), (first :: more)[j]? = some r →
      (p.drop (3 + 18 * j)).take 18 = r.bytes)
  ∧ (∀ (own : Nat) (records : List OutputRecord), records.length ≤ 12 →
    ∃ p : List Byte, reducedFrame own records = formFrame 6 own p
    ∧ p.length = 1 + 18 * records.length ∧ byteAt p 0 = records.length
    ∧ ∀ (j : Nat) (r : OutputRecord), records[j]? = some r →
      (p.drop (1 + 18 * j)).take 18 = r.bytes)
  ∧ ∀ (own : Nat) (f : ReadoutFrame), f.id < 256 → f.offset < 65536 → f.words.length ≤ 48 →
    (∀ v ∈ f.words, -2147483648 ≤ v ∧ v ≤ 2147483647) →
    ∃ p : List Byte, f.bytes own = formFrame 7 own p
    ∧ p.length = 7 + 4 * f.words.length ∧ byteAt p 0 = f.id ∧ byteAt p 1 = f.ring.val
    ∧ byteAt p 2 = (match f.part with
      | .halfA => 0
      | .halfB => 1
      | .snapshot => 2)
    ∧ byteAt p 3 = (if f.last = true then 1 else 0) + (if f.aborted = true then 2 else 0)
      + (if f.gapped = true then 4 else 0)
    ∧ read2 p 4 = f.offset ∧ byteAt p 6 = f.words.length
    ∧ ∀ (j : Nat) (v : Int), f.words[j]? = some v → readSigned4 p (7 + 4 * j) = v

/-! ### The assembler and the arbiter (chapter 8) -/

/-- ASSEMBLER_TAKE_RECORD takes the oldest record of a slot. While the C-port is not UP it is dropped and
counted (R160). Else it opens a frame and starts the hold timer, joins the open frame, or closes it as its
twelfth record (R153). REDUCED_HOLD_EXPIRY closes the open frame with the records it holds. A closed frame
enters DT where DT holds fewer than 16 frames and, while a readout still has frames to place, fewer than 8
REDUCED ones; else its records are dropped and counted (R154, R155). -/
def Obligations.AssemblerPacksRecords : Prop :=
  ∀ (s s₀ : State) (enters : Bool) (closes : State → List OutputRecord → State),
    (enters = true ↔ s.egress.dt.length < 16
      ∧ ((∃ x, s.readout.engine = .sending x ∧ x.lastQueued = false) →
        reducedInDt s.egress.dt < 8)) →
    (∀ z records, closes z records =
      { z with egress :=
        if enters = true then
          { z.egress with dt := s.egress.dt ++ [.reduced records], openFrame := [],
                          holdTimer := .stopped }
        else
          { z.egress with
            reducedDropped := min (s.egress.reducedDropped + records.length) 4294967295
            openFrame := []
            holdTimer := .stopped } }) →
    (∀ (r : OutputRecord) (before after : List OutputRecord),
      s.egress.records = before ++ r :: after → (∀ x ∈ before, x.slot ≠ r.slot) →
      s₀ = { s with egress := { s.egress with records := before ++ after } } →
      (s.egress.held = true → exec (.assemblerTakeRecord r.slot) s = .next { s₀ with egress :=
        { s₀.egress with reducedDropped := min (s.egress.reducedDropped + 1) 4294967295 } })
      ∧ (s.egress.held = false → s.egress.openFrame = [] →
        exec (.assemblerTakeRecord r.slot) s = .next { s₀ with egress :=
          { s₀.egress with openFrame := [r]
                           holdTimer := .running (s.management.global.reducedHold * 1000) } })
      ∧ (s.egress.held = false → s.egress.openFrame ≠ [] → s.egress.openFrame.length ≤ 10 →
        exec (.assemblerTakeRecord r.slot) s = .next { s₀ with egress :=
          { s₀.egress with openFrame := s.egress.openFrame ++ [r] } })
      ∧ (s.egress.held = false → s.egress.openFrame.length = 11 →
        exec (.assemblerTakeRecord r.slot) s = .next (closes s₀ (s.egress.openFrame ++ [r]))))
    ∧ (s.egress.holdTimer = .running 0 → s.egress.openFrame ≠ [] →
      exec .reducedHoldExpiry s = .next (closes s s.egress.openFrame))

/-- ARBITER_GRANT with the C-port UP, free and not paused, and its last change taken by the scheduler
(assumption 12): MR first; else EV where it is ready; else DT at a streak of S or more; else FW; else DT. MR,
FW and REDUCED frames of DT leave from the head of their queues and are sent; an FW grant counts in the
streak while DT holds a frame, a DT grant clears it, MR and EV grants keep it (R115, R157, R158, R159). With
nothing to send there is no grant. -/
def Obligations.ArbiterGrantsByPriority : Prop :=
  ∀ (s : State) (ready : Bool) (fw : List (List Byte)) (dt : List DtFrame) (mr : List MrReply)
    (streak due : Nat),
    s.cPort.link = .up → s.cPort.sending = none → s.cPort.paused = false → s.egress.held = false →
    s.egress.cChanges = [] →
    (ready = true ↔ EvReady s) →
    fw = s.egress.fw → dt = s.egress.dt → mr = s.egress.mr → streak = s.egress.streak →
    due = s.management.global.dtStreak →
    (∀ x xs, mr = x :: xs → exec .arbiterGrant s = .next { s with
      egress := { s.egress with mr := xs }
      cPort := s.cPort.beginFrame (x.reply.bytes s.ownNode) })
    ∧ (mr = [] → ready = true → ∃ t : State, exec .arbiterGrant s = .next t
      ∧ t = { s with events := t.events, cPort := t.cPort } ∧ t.cPort.sending ≠ none)
    ∧ (∀ f fs, mr = [] → ready = false → (dt = [] ∨ streak < due) → fw = f :: fs →
      exec .arbiterGrant s = .next { s with
        egress := { s.egress with fw := fs, streak := if dt = [] then 0 else streak + 1 }
        fPort := { s.fPort with occupancy := s.fPort.occupancy ++ [.removed fs.length] }
        cPort := s.cPort.beginFrame f })
    ∧ (∀ records ds, mr = [] → ready = false → (due ≤ streak ∨ fw = []) →
      dt = .reduced records :: ds → s.readout.engine = .free →
      exec .arbiterGrant s = .next { s with
        egress := { s.egress with dt := ds, streak := 0 }
        cPort := s.cPort.beginFrame (reducedFrame s.ownNode records) })
    ∧ (mr = [] → ready = false → fw = [] → dt = [] → exec .arbiterGrant s = .next s)

/-! ### Readouts (chapter 5) -/

/-- READOUT_FRAME_PRODUCE: while the engine is SENDING with words left, or with no frame placed for a
readout of none, and DT has room for it, the next frame joins DT: the next 48 words of the part or what is
left, in the order of R96 for a half and of R97 for a snapshot, with LAST where they end at T; the record
counts them (R95, R96, R97, R98). TERMINATING_FRAME_PLACE: a pending terminating frame joins DT where DT
has room (R102). -/
def Obligations.ReadoutFramesAreProduced : Prop :=
  (∀ (s : State) (x : ReadoutRecord) (n : Nat) (r : Ring), s.readout.engine = .sending x →
    s.egress.held = false → s.egress.dt.length < 16 → x.framesQueued < 8 → x.lastQueued = false →
    n = min 48 (x.total - x.nextOffset) → r = s.rings.get x.ring →
    (∀ j, j < n → (if x.part = .snapshot then r.base + (x.start + (x.nextOffset + j)) % r.length
      else x.start + (x.nextOffset + j)) < 65536) →
    ∃ (t : State) (f : ReadoutFrame), exec .readoutFrameProduce s = .next t
      ∧ f.id = x.id ∧ f.ring = x.ring ∧ f.part = x.part ∧ f.offset = x.nextOffset
      ∧ f.words = (List.range n).map (fun j => s.memory.read
          (if x.part = .snapshot then r.base + (x.start + (x.nextOffset + j)) % r.length
            else x.start + (x.nextOffset + j)))
      ∧ f.gapped = x.gapped ∧ f.aborted = false
      ∧ (f.last = true ↔ x.total ≤ x.nextOffset + n)
      ∧ t = { s with
          egress := { s.egress with dt := s.egress.dt ++ [.readout f] }
          readout := { s.readout with engine := .sending { x with
            nextOffset := x.nextOffset + n, framesQueued := x.framesQueued + 1,
            lastQueued := f.last } } })
  ∧ ∀ (s : State) (x : TerminatingRecord), s.readout.engine = .terminating x → x.pending = true →
    s.egress.held = false → s.egress.dt.length < 16 →
    exec .terminatingFramePlace s = .next { s with
      egress := { s.egress with dt := s.egress.dt ++ [.readout
        { id := x.id, ring := x.ring, part := x.part, offset := x.wordsSent, words := [],
          gapped := x.gapped, last := true, aborted := true }] }
      readout := { s.readout with engine := .terminating { x with pending := false } } }

/-- The grant of DT, with MR empty, EV not ready, and either a streak of S or more or FW empty. Of the
READOUT frame that heads DT, LAST completes the readout in SENDING: the part is given back, a half with its
read-once flag set, and the engine is FREE with one more readout completed (R99). A terminating frame frees a TERMINATING engine, and nothing further changes (R102). A frame before LAST is
counted as sent (R99). In the same event the engine examines DT, whatever frame of it was granted: in
SENDING it places the frames that now find room, and in TERMINATING a frame that was pending, or nothing
where none was (R95, R102, R158, R159, section 8.8; assumption 11). -/
def Obligations.ReadoutFrameGrants : Prop :=
  ∀ (s s₀ : State) (g : DtFrame) (rest : List DtFrame),
    s.cPort.link = .up → s.cPort.sending = none → s.cPort.paused = false → s.egress.held = false →
    s.egress.cChanges = [] → s.egress.mr = [] → ¬ EvReady s →
    (s.management.global.dtStreak ≤ s.egress.streak ∨ s.egress.fw = []) → s.egress.dt = g :: rest →
    s₀ = { s with
      egress := { s.egress with dt := rest, streak := 0 }
      cPort := s.cPort.beginFrame (g.bytes s.ownNode) } →
    (∀ (f : ReadoutFrame) (x : ReadoutRecord) (h : HalfId), g = .readout f →
      s.readout.engine = .sending x → f.last = true →
      x.part.half = some h →
      exec .arbiterGrant s = .next { s₀ with
        rings := s.rings.set x.ring { s.rings.get x.ring with
          stream := (s.rings.get x.ring).stream.setHalf h
            { (s.rings.get x.ring).stream.half h with state := .full, readOnce := true } }
        readout := { s.readout with
          engine := .free, completed := min (s.readout.completed + 1) 4294967295 } })
    ∧ (∀ (f : ReadoutFrame) (x : ReadoutRecord), g = .readout f → s.readout.engine = .sending x →
      f.last = true → x.part = .snapshot →
      exec .arbiterGrant s = .next { s₀ with
        rings := s.rings.set x.ring { s.rings.get x.ring with
          snapshot := { (s.rings.get x.ring).snapshot with state := .frozen } }
        readout := { s.readout with
          engine := .free, completed := min (s.readout.completed + 1) 4294967295 } })
    ∧ (∀ x z : ReadoutRecord, s.readout.engine = .sending x → ReadoutInMemory s x →
      ((∃ f, g = .readout f ∧ f.last = false ∧ z = { x with
          framesQueued := x.framesQueued - 1, wordsSent := x.wordsSent + f.words.length })
        ∨ ∃ records, g = .reduced records ∧ z = x) →
      ∃ (frames : List ReadoutFrame) (y : ReadoutRecord), PlacesFrames s z y (16 - rest.length) frames
        ∧ exec .arbiterGrant s = .next { s₀ with
            egress := { s₀.egress with dt := rest ++ frames.map .readout }
            readout := { s.readout with engine := .sending y } })
    ∧ (∀ (f : ReadoutFrame) (x : TerminatingRecord), g = .readout f →
      s.readout.engine = .terminating x → f.aborted = true →
      exec .arbiterGrant s = .next { s₀ with readout := { s.readout with engine := .free } })
    ∧ (∀ (records : List OutputRecord) (x : TerminatingRecord), g = .reduced records →
      s.readout.engine = .terminating x → x.pending = false → exec .arbiterGrant s = .next s₀)
    ∧ (∀ (records : List OutputRecord) (x : TerminatingRecord), g = .reduced records →
      s.readout.engine = .terminating x → x.pending = true → rest.length < 16 →
      exec .arbiterGrant s = .next { s₀ with
        egress := { s₀.egress with dt := rest ++ [.readout x.frame] }
        readout := { s.readout with engine := .terminating { x with pending := false } } })

/-- C_PORT_LEAVING_UP_EGRESS: FW, DT and MR are emptied and held empty, the open frame is discarded, the
hold timer stops, the streak is 0, and the F-port is told of FW's emptying; a readout in SENDING gives its
part back, read-once as it was, and counts as aborted, and the engine is FREE (R103, R160, R170, R174).
C_PORT_COMING_UP_EGRESS: the queues are released (R160, R174); a readout that waited places its first
frames, and a terminating frame that was pending is placed (R95, R102). That it is this same event in which
they are placed is the model's reading of sections 5.7 and 8.8 (assumption 11). The scheduler takes the
coming UP only once the event unit has taken the C-port's changes and has a record queued, and before that
the command changes nothing: that is the model's reading of R174, by which the first frames are replies and
event frames (assumption 26). -/
def Obligations.CPortChangesReachEgress : Prop :=
  (∀ (s s₀ : State) (xs : List LinkChange), s.egress.cChanges = .leftUp :: xs →
    s₀ = { s with
      egress := { s.egress with fw := [], dt := [], mr := [], openFrame := [], holdTimer := .stopped,
                                streak := 0, held := true, cChanges := xs }
      fPort := { s.fPort with occupancy := s.fPort.occupancy ++ [.removed 0] } } →
    (s.readout.engine = .free → exec .cPortLeavingUpEgress s = .next s₀)
    ∧ (∀ x, s.readout.engine = .terminating x → exec .cPortLeavingUpEgress s
        = .next { s₀ with readout := { s.readout with engine := .free } })
    ∧ (∀ x h, s.readout.engine = .sending x → x.part.half = some h →
      exec .cPortLeavingUpEgress s = .next { s₀ with
        rings := s.rings.set x.ring { s.rings.get x.ring with
          stream := (s.rings.get x.ring).stream.setHalf h
            { (s.rings.get x.ring).stream.half h with state := .full } }
        readout := { s.readout with
          engine := .free, aborted := min (s.readout.aborted + 1) 4294967295 } })
    ∧ (∀ x, s.readout.engine = .sending x → x.part = .snapshot →
      exec .cPortLeavingUpEgress s = .next { s₀ with
        rings := s.rings.set x.ring { s.rings.get x.ring with
          snapshot := { (s.rings.get x.ring).snapshot with state := .frozen } }
        readout := { s.readout with
          engine := .free, aborted := min (s.readout.aborted + 1) 4294967295 } }))
  ∧ (∀ s : State, ¬ EventsLead s → exec .cPortComingUpEgress s = .next s)
  ∧ ∀ (s : State) (xs : List LinkChange), s.egress.cChanges = .cameUp :: xs → EventsLead s →
    (s.readout.engine = .free → exec .cPortComingUpEgress s
      = .next { s with egress := { s.egress with cChanges := xs, held := false } })
    ∧ (∀ x, s.readout.engine = .sending x → ReadoutInMemory s x →
      ∃ (frames : List ReadoutFrame) (y : ReadoutRecord),
        PlacesFrames s x y (16 - s.egress.dt.length) frames
        ∧ exec .cPortComingUpEgress s = .next { s with
            egress := { s.egress with
              cChanges := xs, held := false, dt := s.egress.dt ++ frames.map .readout }
            readout := { s.readout with engine := .sending y } })
    ∧ ∀ x, s.readout.engine = .terminating x → x.pending = true → s.egress.dt.length < 16 →
      exec .cPortComingUpEgress s = .next { s with
        egress := { s.egress with
          cChanges := xs, held := false, dt := s.egress.dt ++ [.readout x.frame] }
        readout := { s.readout with engine := .terminating { x with pending := false } } }

/-! ### Management requests (chapter 7) -/

/-- How a request is taken, whatever its command (R128, R129, R130, R131, R157). A tag of 4..255 is
answered with BAD_LENGTH, and a repeat of its tag's cached number with the cached reply, without being
executed or cached; arguments of another length than section 10.3 gives are answered with BAD_LENGTH. The
reply to an executed request replaces its tag's cache entry and, while the C-port is UP, takes its tag's
place in MR at the tail, whatever waits there; the next request that waits is then taken.
REQUEST_TOO_SHORT: a payload of fewer than 3 bytes is dropped without a reply and counted on the
C-port (R128 stage 1). UNKNOWN_CODE: code 0 and codes above 12h are answered with UNKNOWN_REQUEST, which
is cached (R128 stage 4, R177). -/
def Obligations.RequestsAreTakenInStages : Prop :=
  ((∀ (c : Instr) (s : State) (q : Request), s.currentRequest = some q →
     (requestCode c = some q.code.toNat
       ∨ c = .unknownCode ∧ (q.code.toNat = 0 ∨ 0x12 < q.code.toNat)) →
     (4 ≤ q.tag.toNat → exec c s = .next (repliedOnly s q (bareReply q .badLength)))
     ∧ (q.tag.toNat < 4 → ∀ x, s.management.cache.get (tagPlace q.tag) = some x → x.number = q.number →
       exec c s = .next (repliedOnly s q x.reply)))
   ∧ (∀ (c : Instr) (code : Nat) (s : State) (q : Request), requestCode c = some code →
     Executes s q code → argumentLengthGood code q.args = false →
     exec c s = .next (repliedOnly s q (bareReply q .badLength)))
   ∧ (∀ (s t : State) (q : Request) (r : Reply) (place : Fin 4), t = repliedOnly s q r →
     place = tagPlace q.tag →
     t.management.cache = s.management.cache
     ∧ t.egress.mr = (if s.egress.held = true then s.egress.mr
       else s.egress.mr.filter (fun x => decide (x.place ≠ place)) ++ [⟨place, r⟩])
     ∧ t.management.current = s.management.waiting.head?
     ∧ t.management.waiting = s.management.waiting.tail
     ∧ t.management.shares.taken = []
     ∧ t = { s with
         egress := { s.egress with mr := t.egress.mr }
         management := { s.management with current := t.management.current,
                                           shares := t.management.shares,
                                           waiting := t.management.waiting } })
   ∧ ∀ (s t : State) (q : Request) (status : Status) (results : List Byte) (place : Fin 4) (r : Reply),
     t = answered s q status results → place = tagPlace q.tag →
     r = { tag := q.tag, number := q.number, code := q.code, status := status, results := results } →
     place.val = q.tag.toNat % 4
     ∧ t.management.cache.get place = some ⟨q.number, r⟩
     ∧ (∀ other, other ≠ place → t.management.cache.get other = s.management.cache.get other)
     ∧ t.egress.mr = (if s.egress.held = true then s.egress.mr
       else s.egress.mr.filter (fun x => decide (x.place ≠ place)) ++ [⟨place, r⟩])
     ∧ t.management.current = s.management.waiting.head?
     ∧ t.management.waiting = s.management.waiting.tail
     ∧ t.management.shares.taken = []
     ∧ t = { s with
         egress := { s.egress with mr := t.egress.mr }
         management := { s.management with cache := t.management.cache,
                                           current := t.management.current,
                                           shares := t.management.shares,
                                           waiting := t.management.waiting } })
  ∧ ((∀ (s : State) (payload : List Byte), s.management.current = some payload → payload.length < 3 →
     ∃ t : State, exec .requestTooShort s = .next t ∧ t.management.shares.taken = []
       ∧ t = { s with
         cPort := { s.cPort with malformed := min (s.cPort.malformed + 1) 4294967295 }
         management := { s.management with current := s.management.waiting.head?,
                                           shares := t.management.shares,
                                           waiting := s.management.waiting.tail } })
   ∧ ∀ (s : State) (q : Request) (code : Nat), Executes s q code → (code = 0 ∨ 0x12 < code) →
     exec .unknownCode s = .next (answered s q .unknownRequest []))

/-- IDENT gives the identity and capacities (R144). READ_STATUS and CLEAR_COUNTERS: while a block that owns
some of R140's values has still to take its share, one such block does so in an event of its own, giving
all its values at once or zeroing its counts and those of every NODE entry, and nothing else changes; when
every one has, the reply is made, of the values given, in the order of R140 (R140, R141, R142). Where
nothing comes between, the seven events give the values, or zero the counts, as the request found them.
Which block comes next is free (assumption 24). SET_TIME sets the timebase to t and changes nothing else,
running timers included (R143). -/
def Obligations.IdentityStatusCountersAndTime : Prop :=
  ∀ (s : State) (q : Request),
    (Executes s q 0x01 → q.args = [] → exec .ident s = .next (answered s q .ok
      ([0x0D, 0x7A, 0x06, 0x40, 0x01, byteOf s.ownNode, 64, 30, 16, 32, 8, 0x00, 0x01, 0x00, 0x00,
        128, 4])))
    ∧ (Executes s q 0x06 → q.args = [] →
      ((∃ b, takesPart 0x06 b ∧ b ∉ s.management.shares.taken) → ∃ b, takesPart 0x06 b
        ∧ b ∉ s.management.shares.taken
        ∧ exec .readStatus s = .next (shareTaken { s with management := { s.management with
            shares := { s.management.shares with
              readings := withReading s b s.management.shares.readings } } } b))
      ∧ ((∀ b, takesPart 0x06 b → b ∈ s.management.shares.taken) →
        exec .readStatus s
          = .next (answered s q .ok (statusBytes s.management.shares.readings)))
      ∧ (s.management.shares.taken = [] → runAll (List.replicate 7 .readStatus) s
          = .next (answered { s with choices := s.choices + 6 } q .ok
            (statusBytes (readingsNow s s.management.shares.readings)))))
    ∧ (Executes s q 0x07 → q.args = [] →
      ((∃ b, takesPart 0x07 b ∧ b ∉ s.management.shares.taken) → ∃ (b : Block) (t : State),
        takesPart 0x07 b ∧ b ∉ s.management.shares.taken ∧ CountsCleared s t b
        ∧ exec .clearCounters s = .next (shareTaken t b))
      ∧ ((∀ b, takesPart 0x07 b → b ∈ s.management.shares.taken) →
        exec .clearCounters s = .next (answered s q .ok []))
      ∧ (s.management.shares.taken = [] → ∃ t : State,
        runAll (List.replicate 7 .clearCounters) s = .next (answered t q .ok [])
        ∧ (∀ n, t.classifier.nodes.get n = { s.classifier.nodes.get n with
            accepted := 0, gaps := 0, missing := 0, stale := 0 })
        ∧ t = { s with
            fPort := { s.fPort with framesGood := 0, crcErrors := 0, malformed := 0 }
            cPort := { s.cPort with framesGood := 0, crcErrors := 0, malformed := 0 }
            classifier := { s.classifier with nodes := t.classifier.nodes, staleFrames := 0 }
            readout := { s.readout with completed := 0, aborted := 0 }
            events := { s.events with lifetimeLoss := 0 }
            egress := { s.egress with fwDrops := 0, downDiscards := 0, reducedDropped := 0,
                                      obDrops := 0 }
            choices := s.choices + 6 }))
    ∧ ∀ b₀ b₁ b₂ b₃ : Byte, Executes s q 0x08 → q.args = [b₀, b₁, b₂, b₃] →
      exec .setTime s = .next (answered
        { s with timebase := ((b₀.toNat * 256 + b₁.toNat) * 256 + b₂.toNat) * 256 + b₃.toNat }
        q .ok [])

/-- READ_ENTRY: a table code outside 1..6 and an index outside the table's range are BAD_VALUE; else the
reply is OK with the entry record of section 10.5, byte by byte: the enabled flag, the bound, live and
read-only fields, and the presence bytes of the optional ones; nothing else changes (R133, R179). -/
def Obligations.ReadEntryGivesTheRecord : Prop :=
  ∀ (s : State) (q : Request) (table index : Byte), Executes s q 0x02 → q.args = [table, index] →
    (table.toNat = 0 ∨ 7 ≤ table.toNat → exec .readEntry s = .next (answered s q .badValue []))
    ∧ ((table.toNat = 1 ∧ 64 ≤ index.toNat) ∨ (table.toNat = 2 ∧ (index.toNat = 0 ∨ 31 ≤ index.toNat))
        ∨ (table.toNat = 3 ∧ 16 ≤ index.toNat) ∨ (table.toNat = 4 ∧ 32 ≤ index.toNat)
        ∨ (table.toNat = 5 ∧ 8 ≤ index.toNat) ∨ (table.toNat = 6 ∧ index.toNat ≠ 0) →
      exec .readEntry s = .next (answered s q .badValue []))
    ∧ (∀ c : Fin 64, table.toNat = 1 → index.toNat = c.val → ∃ bs, ChannelLayout (s.channel c) bs
      ∧ exec .readEntry s = .next (answered s q .ok bs))
    ∧ (∀ n : Fin 30, table.toNat = 2 → index.toNat = n.val + 1 →
      ∃ bs, NodeLayout (s.classifier.nodes.get n) bs
        ∧ exec .readEntry s = .next (answered s q .ok bs))
    ∧ (∀ k : Fin 16, table.toNat = 3 → index.toNat = k.val → ∃ bs, SlotLayout (s.slots.get k) bs
      ∧ exec .readEntry s = .next (answered s q .ok bs))
    ∧ (∀ k : Fin 32, table.toNat = 4 → index.toNat = k.val → ∃ bs, RuleLayout (s.rules.get k) bs
      ∧ exec .readEntry s = .next (answered s q .ok bs))
    ∧ (∀ k : Fin 8, table.toNat = 5 → index.toNat = k.val → ∃ bs, RingLayout (s.rings.get k) bs
      ∧ exec .readEntry s = .next (answered s q .ok bs))
    ∧ (table.toNat = 6 → index.toNat = 0 → ∃ bs, GlobalLayout s.management.global bs
      ∧ exec .readEntry s = .next (answered s q .ok bs))

/-- WRITE_ENTRY. A table code outside 1..6 is BAD_VALUE, NODE is BAD_TABLE, an index outside the range is
BAD_VALUE. A mask that names no field, or one the table does not have or that is read-only, is BAD_VALUE;
a mask that names a bound field of an enabled entry is LIVE_FIELD; a named value outside its range, a ring
whose base, length and post count would not fit, and a write that would leave an enabled rule inconsistent
are BAD_VALUE; each refusal changes nothing. Else the write is applied whole: each field the mask names
takes its bytes, and every other field, the read-only ones and the enabled flag among them, is kept; what an
earlier source offered is in flight no more to an entry that names another (assumption 9) (R9,
R23, R42, R67, R134, R135, R137, R138, R179). -/
def Obligations.WriteEntryIsAllOrNothing : Prop :=
  ∀ (s : State) (q : Request) (table index m₃ m₂ m₁ m₀ : Byte) (values : List Byte) (mask : Nat),
    Executes s q 0x03 → q.args = table :: index :: m₃ :: m₂ :: m₁ :: m₀ :: values →
    mask = ((m₃.toNat * 256 + m₂.toNat) * 256 + m₁.toNat) * 256 + m₀.toNat →
    argumentLengthGood 0x03 q.args = true →
    (table.toNat = 0 ∨ 7 ≤ table.toNat → exec .writeEntry s = .next (answered s q .badValue []))
    ∧ (table.toNat = 2 → exec .writeEntry s = .next (answered s q .badTable []))
    ∧ ((table.toNat = 1 ∧ 64 ≤ index.toNat) ∨ (table.toNat = 3 ∧ 16 ≤ index.toNat)
        ∨ (table.toNat = 4 ∧ 32 ≤ index.toNat) ∨ (table.toNat = 5 ∧ 8 ≤ index.toNat)
        ∨ (table.toNat = 6 ∧ index.toNat ≠ 0) →
      exec .writeEntry s = .next (answered s q .badValue []))
    ∧ (∀ (c : Fin 64) (x : Channel), table.toNat = 1 → index.toNat = c.val → x = s.channel c →
      (mask = 0 ∨ 32 ≤ mask → exec .writeEntry s = .next (answered s q .badValue []))
      ∧ (mask ≠ 0 → mask < 32 → x.enabled = true → mask % 8 ≠ 0 →
        exec .writeEntry s = .next (answered s q .liveField []))
      ∧ (mask ≠ 0 → mask < 32 → (x.enabled = false ∨ mask % 8 = 0) →
        (ChannelValuesGood mask values → exec .writeEntry s
          = .next (answered (s.setChannel c (channelWritten x mask values)) q .ok []))
        ∧ (¬ ChannelValuesGood mask values →
          exec .writeEntry s = .next (answered s q .badValue []))))
    ∧ (∀ (k : Fin 16) (x : Slot), table.toNat = 3 → index.toNat = k.val → x = s.slots.get k →
      (mask = 0 ∨ 64 ≤ mask → exec .writeEntry s = .next (answered s q .badValue []))
      ∧ (mask ≠ 0 → mask < 64 → x.enabled = true → mask % 16 ≠ 0 →
        exec .writeEntry s = .next (answered s q .liveField []))
      ∧ (mask ≠ 0 → mask < 64 → (x.enabled = false ∨ mask % 16 = 0) →
        (SlotValuesGood mask values → ∃ y, SlotWritten x y mask values
          ∧ exec .writeEntry s = .next (answered (s.setSlot k y) q .ok []))
        ∧ (¬ SlotValuesGood mask values →
          exec .writeEntry s = .next (answered s q .badValue []))))
    ∧ (∀ (k : Fin 8) (x : Ring), table.toNat = 5 → index.toNat = k.val → x = s.rings.get k →
      (mask = 0 ∨ 256 ≤ mask → exec .writeEntry s = .next (answered s q .badValue []))
      ∧ (mask ≠ 0 → mask < 256 → x.enabled = true → mask % 32 ≠ 0 →
        exec .writeEntry s = .next (answered s q .liveField []))
      ∧ (mask ≠ 0 → mask < 256 → (x.enabled = false ∨ mask % 32 = 0) →
        (RingValuesGood x mask values → ∃ y, RingWritten x y mask values
          ∧ exec .writeEntry s = .next (answered (s.setRing k y) q .ok []))
        ∧ (¬ RingValuesGood x mask values →
          exec .writeEntry s = .next (answered s q .badValue []))))
    ∧ (∀ (k : Fin 32) (x : Rule), table.toNat = 4 → index.toNat = k.val → x = s.rules.get k →
      (mask = 0 ∨ 4096 ≤ mask → exec .writeEntry s = .next (answered s q .badValue []))
      ∧ (mask ≠ 0 → mask < 4096 → x.enabled = true → (mask % 16 ≠ 0 ∨ 1024 ≤ mask) →
        exec .writeEntry s = .next (answered s q .liveField []))
      ∧ (mask ≠ 0 → mask < 4096 → (x.enabled = false ∨ (mask % 16 = 0 ∧ mask < 1024)) →
        (RuleValuesGood mask values → ∃ y, RuleWritten x y mask values
          ∧ (x.enabled = true → ¬ ConsistentRule y →
            exec .writeEntry s = .next (answered s q .badValue []))
          ∧ (x.enabled = false ∨ ConsistentRule y →
            exec .writeEntry s = .next (answered (s.setRule k y) q .ok [])))
        ∧ (¬ RuleValuesGood mask values →
          exec .writeEntry s = .next (answered s q .badValue []))))
    ∧ (table.toNat = 6 → index.toNat = 0 →
      (mask % 2 = 1 ∨ 128 ≤ mask ∨ mask = 0 →
        exec .writeEntry s = .next (answered s q .badValue []))
      ∧ (mask % 2 = 0 → mask < 128 → mask ≠ 0 →
        (GlobalValuesGood mask values →
          exec .writeEntry s = .next (answered { s with management := { s.management with
            global := globalWritten s.management.global mask values } } q .ok []))
        ∧ (¬ GlobalValuesGood mask values →
          exec .writeEntry s = .next (answered s q .badValue []))))

/-- ENABLE, by the checks of its table in their order, and the entry it leaves: CHANNEL (R10, R11), SLOT
(R24, R25), RULE (R43, R44) and RING (R68, R69); NODE and GLOBAL are BAD_TABLE (R136). What is in flight to
a slot, rule or ring when it is enabled still reaches it, so that of a frame or an output that the ENABLE
meets it takes what comes after the ENABLE (R16, R25, R44, R69). That items of a former enabling are among it,
of several frames too, is the model's choice, and so is that a channel or slot enabled begins its own stream
anew, with nothing that it offered before in flight (assumption 9). -/
def Obligations.EnableChecksAndBegins : Prop :=
  ∀ (s : State) (q : Request) (table index : Byte), Executes s q 0x04 → q.args = [table, index] →
    (table.toNat = 0 ∨ 7 ≤ table.toNat → exec .enable s = .next (answered s q .badValue []))
    ∧ (table.toNat = 2 ∨ table.toNat = 6 → exec .enable s = .next (answered s q .badTable []))
    ∧ ((table.toNat = 1 ∧ 64 ≤ index.toNat) ∨ (table.toNat = 3 ∧ 16 ≤ index.toNat)
        ∨ (table.toNat = 4 ∧ 32 ≤ index.toNat) ∨ (table.toNat = 5 ∧ 8 ≤ index.toNat) →
      exec .enable s = .next (answered s q .badValue []))
    ∧ (∀ (c : Fin 64) (x : Channel), table.toNat = 1 → index.toNat = c.val → x = s.channel c →
      (x.enabled = true → exec .enable s = .next (answered s q .state []))
      ∧ (x.enabled = false → (x.node = 0 ∨ x.node = s.ownNode) →
        exec .enable s = .next (answered s q .badValue []))
      ∧ (x.enabled = false → x.node ≠ 0 → x.node ≠ s.ownNode →
        ((∃ d, d ≠ c ∧ (s.channel d).enabled = true ∧ (s.channel d).node = x.node
            ∧ (s.channel d).input = x.input) →
          exec .enable s = .next (answered s q .duplicateKey []))
        ∧ ((∀ d, d ≠ c → (s.channel d).enabled = true →
            ¬ ((s.channel d).node = x.node ∧ (s.channel d).input = x.input)) →
          ∃ t, OffersGone s t (.channel c) ∧ exec .enable s = .next (answered (t.setChannel c { x with
            enabled := true, sampleIndex := 0, lastValue := none, gapMarks := 0 }) q .ok []))))
    ∧ (∀ (k : Fin 16) (x : Slot), table.toNat = 3 → index.toNat = k.val → x = s.slots.get k →
      (x.enabled = true → exec .enable s = .next (answered s q .state []))
      ∧ (x.enabled = false → x.mode = .enhance → x.exponent % 2 = 1 →
        exec .enable s = .next (answered s q .badValue []))
      ∧ (x.enabled = false → (x.mode ≠ .enhance ∨ x.exponent % 2 = 0) →
        ((s.channel x.channel).enabled = false →
          exec .enable s = .next (answered s q .dependent []))
        ∧ ((s.channel x.channel).enabled = true →
          ∃ t, OffersGone s t (.slot k) ∧ exec .enable s = .next (answered (t.setSlot k { x with
            enabled := true
            state := if x.trigger = .continuous then .accum else .idle
            count := 0
            outputIndex := 0
            brokenWindows := 0
            window := none
            afterGap := false }) q .ok []))))
    ∧ (∀ (k : Fin 32) (r : Rule), table.toNat = 4 → index.toNat = k.val → r = s.rules.get k →
      (r.enabled = true → exec .enable s = .next (answered s q .state []))
      ∧ (r.enabled = false → (r.sourceKind = .slot ∧ 16 ≤ r.sourceIndex.val ∨ ¬ ConsistentRule r) →
        exec .enable s = .next (answered s q .badValue []))
      ∧ (r.enabled = false → (r.sourceKind = .slot → r.sourceIndex.val < 16) → ConsistentRule r →
        (¬ SourceOn s r.sourceKind r.sourceIndex ∨ ¬ FreezeRingOn s r ∨ ¬ StartSlotOn s r →
          exec .enable s = .next (answered s q .dependent []))
        ∧ (SourceOn s r.sourceKind r.sourceIndex → FreezeRingOn s r → StartSlotOn s r →
          exec .enable s = .next (answered (s.setRule k { r with
            enabled := true, state := .clear, runCount := 0, previous := none, asserts := 0,
            lastAssert := none }) q .ok []))))
    ∧ (∀ (k : Fin 8) (r : Ring) (taken : Bool), table.toNat = 5 → index.toNat = k.val →
      r = s.rings.get k →
      (taken = true ↔ ∃ j o, j ≠ k ∧ (s.rings.get j).enabled = true
        ∧ (s.rings.get j).base ≤ o ∧ o < (s.rings.get j).base + (s.rings.get j).length
        ∧ r.base ≤ o ∧ o < r.base + r.length) →
      (r.enabled = true → exec .enable s = .next (answered s q .state []))
      ∧ (r.enabled = false → (r.length = 0 ∨ r.sourceKind = .slot ∧ 16 ≤ r.sourceIndex.val) →
        exec .enable s = .next (answered s q .badValue []))
      ∧ (r.enabled = false → r.length ≠ 0 → (r.sourceKind = .slot → r.sourceIndex.val < 16) →
        (∀ j, (s.rings.get j).enabled = true → (s.rings.get j).length ≠ 0) →
        (taken = true → exec .enable s = .next (answered s q .overlap []))
        ∧ (taken = false → ¬ SourceOn s r.sourceKind r.sourceIndex →
          exec .enable s = .next (answered s q .dependent []))
        ∧ (taken = false → SourceOn s r.sourceKind r.sourceIndex →
          exec .enable s = .next (answered (s.setRing k { r with
            enabled := true
            dropped := 0
            lost := 0
            stream := if r.mode = .stream then
                ⟨.filling .a, ⟨.filling, 0, false, false⟩, ⟨.empty, 0, false, false⟩, false⟩
              else ⟨.off, ⟨.empty, 0, false, false⟩, ⟨.empty, 0, false, false⟩, false⟩
            snapshot := ⟨if r.mode = .snapshot then .run else .off, 0, 0, 0, false, none, none⟩ })
            q .ok []))))

/-- DISABLE, by the checks of its table in their order, and the entry it leaves: CHANNEL (R10, R12), SLOT
(R24, R26), RULE (R43, R46) and RING (R68, R70); NODE and GLOBAL are BAD_TABLE (R136). That what is in flight
to the slot, rule or ring stays in flight, to find it disabled unless an ENABLE comes first, is the model's
choice (assumption 9). -/
def Obligations.DisableChecksAndEnds : Prop :=
  ∀ (s : State) (q : Request) (table index : Byte), Executes s q 0x05 → q.args = [table, index] →
    (table.toNat = 0 ∨ 7 ≤ table.toNat → exec .disable s = .next (answered s q .badValue []))
    ∧ (table.toNat = 2 ∨ table.toNat = 6 → exec .disable s = .next (answered s q .badTable []))
    ∧ ((table.toNat = 1 ∧ 64 ≤ index.toNat) ∨ (table.toNat = 3 ∧ 16 ≤ index.toNat)
        ∨ (table.toNat = 4 ∧ 32 ≤ index.toNat) ∨ (table.toNat = 5 ∧ 8 ≤ index.toNat) →
      exec .disable s = .next (answered s q .badValue []))
    ∧ (∀ (c : Fin 64) (named : Bool), table.toNat = 1 → index.toNat = c.val →
      (named = true ↔
        (∃ k, (s.slots.get k).enabled = true ∧ (s.slots.get k).channel = c)
        ∨ (∃ k, (s.rules.get k).enabled = true ∧ (s.rules.get k).sourceKind = .channel
            ∧ (s.rules.get k).sourceIndex = c)
        ∨ (∃ k, (s.rings.get k).enabled = true ∧ (s.rings.get k).sourceKind = .channel
            ∧ (s.rings.get k).sourceIndex = c)) →
      ((s.channel c).enabled = false → exec .disable s = .next (answered s q .state []))
      ∧ ((s.channel c).enabled = true → named = true →
        exec .disable s = .next (answered s q .dependent []))
      ∧ ((s.channel c).enabled = true → named = false →
        exec .disable s = .next (answered
          (s.setChannel c { s.channel c with enabled := false }) q .ok [])))
    ∧ (∀ (k : Fin 16) (x : Slot) (named : Bool), table.toNat = 3 → index.toNat = k.val →
      x = s.slots.get k →
      (named = true ↔
        (∃ j, (s.rules.get j).enabled = true ∧ ((s.rules.get j).startSlot = some k
          ∨ (s.rules.get j).sourceKind = .slot ∧ (s.rules.get j).sourceIndex.val = k.val))
        ∨ (∃ j, (s.rings.get j).enabled = true ∧ (s.rings.get j).sourceKind = .slot
            ∧ (s.rings.get j).sourceIndex.val = k.val)) →
      (x.enabled = false → exec .disable s = .next (answered s q .state []))
      ∧ (x.enabled = true → named = true → exec .disable s = .next (answered s q .dependent []))
      ∧ (x.enabled = true → named = false →
        exec .disable s = .next (answered (s.setSlot k { x with
          enabled := false, state := .off, count := 0, window := none, afterGap := false })
          q .ok [])))
    ∧ (∀ (k : Fin 32) (r : Rule), table.toNat = 4 → index.toNat = k.val → r = s.rules.get k →
      (r.enabled = false → exec .disable s = .next (answered s q .state []))
      ∧ (r.enabled = true → exec .disable s = .next (answered (s.setRule k { r with
          enabled := false, state := .off, runCount := 0, previous := none }) q .ok [])))
    ∧ (∀ (k : Fin 8) (r : Ring) (busy named : Bool), table.toNat = 5 → index.toNat = k.val →
      r = s.rings.get k →
      (busy = true ↔ (∃ x, s.readout.engine = .sending x ∧ x.ring = k)
        ∨ ∃ x, s.readout.engine = .terminating x ∧ x.ring = k) →
      (named = true ↔ ∃ j, (s.rules.get j).enabled = true ∧ (s.rules.get j).freezeRing = some k) →
      (r.enabled = false → exec .disable s = .next (answered s q .state []))
      ∧ (r.enabled = true → busy = true → exec .disable s = .next (answered s q .busy []))
      ∧ (r.enabled = true → busy = false → named = true →
        exec .disable s = .next (answered s q .dependent []))
      ∧ (r.enabled = true → busy = false → named = false →
        exec .disable s = .next (answered (s.setRing k { r with
          enabled := false
          stream := ⟨.off, ⟨.empty, 0, false, false⟩, ⟨.empty, 0, false, false⟩, false⟩
          snapshot := ⟨.off, 0, 0, 0, false, none, none⟩ }) q .ok [])))

/-- READ_RING: the checks of R93 in their order. Accepted while the C-port is not UP (R160), the part is
READING, the engine SENDING with the record of R94, the next id advanced, and the reply ACCEPTED with the
id and the total words; no frame is placed until the C-port comes UP. ABORT_READ in SENDING: the part is
given back, the readout's frames leave DT, the readout counts as aborted, and its terminating frame is
placed in DT, or is pending while DT holds 16 other frames or the C-port is not UP; in FREE and TERMINATING it is refused with STATE
(R101, R102). That removing the last frames of DT clears the FW streak is the model's reading of R159
(assumption 19). -/
def Obligations.ReadoutRequestsClaimAndGiveBack : Prop :=
  (∀ (s : State) (q : Request) (ring part : Byte), Executes s q 0x09 → q.args = [ring, part] →
    (8 ≤ ring.toNat ∨ 3 ≤ part.toNat → exec .readRing s = .next (answered s q .badValue []))
    ∧ ∀ (k : Fin 8) (p : RingPart) (r : Ring), k.val = ring.toNat → r = s.rings.get k →
      p = (if part.toNat = 0 then .halfA else if part.toNat = 1 then .halfB else .snapshot) →
      part.toNat ≤ 2 →
      (s.readout.engine ≠ .free → exec .readRing s = .next (answered s q .busy []))
      ∧ (s.readout.engine = .free → r.enabled = false →
        exec .readRing s = .next (answered s q .state []))
      ∧ (s.readout.engine = .free → r.enabled = true →
        ((p = .snapshot ∧ r.mode = .stream) ∨ (p ≠ .snapshot ∧ r.mode = .snapshot)) →
        exec .readRing s = .next (answered s q .badValue []))
      ∧ (∀ h, p.half = some h → s.readout.engine = .free → r.enabled = true → r.mode = .stream →
        ((r.stream.half h).state ≠ .full → exec .readRing s = .next (answered s q .state []))
        ∧ ((r.stream.half h).state = .full → s.egress.held = true →
          exec .readRing s = .next (answered { s with
            rings := s.rings.set k { r with
              stream := r.stream.setHalf h { r.stream.half h with state := .reading } }
            readout := { s.readout with
              engine := .sending
                { id := s.readout.nextId, ring := k, part := p, total := (r.stream.half h).fill,
                  start := r.base + (if h = .a then 0 else r.length / 2),
                  gapped := (r.stream.half h).gapped, nextOffset := 0, wordsSent := 0,
                  framesQueued := 0, lastQueued := false }
              nextId := (s.readout.nextId + 1) % 256 } } q .accepted
            (byteOf s.readout.nextId :: bytes4 (r.stream.half h).fill))))
      ∧ (∀ c, p = .snapshot → s.readout.engine = .free → r.enabled = true → r.mode = .snapshot →
        (r.snapshot.state ≠ .frozen → exec .readRing s = .next (answered s q .state []))
        ∧ (r.snapshot.state = .frozen → r.snapshot.record = some c → c.valid ≤ r.length →
          s.egress.held = true →
          exec .readRing s = .next (answered { s with
            rings := s.rings.set k { r with snapshot := { r.snapshot with state := .reading } }
            readout := { s.readout with
              engine := .sending
                { id := s.readout.nextId, ring := k, part := .snapshot, total := c.valid,
                  start := (((c.endPosition : Int) - c.valid) % r.length).toNat,
                  gapped := r.snapshot.gapped, nextOffset := 0, wordsSent := 0, framesQueued := 0,
                  lastQueued := false }
              nextId := (s.readout.nextId + 1) % 256 } } q .accepted
            (byteOf s.readout.nextId :: bytes4 c.valid)))))
  ∧ ∀ (s : State) (q : Request), Executes s q 0x0A → q.args = [] →
    ((s.readout.engine = .free ∨ ∃ x, s.readout.engine = .terminating x) →
      exec .abortRead s = .next (answered s q .state []))
    ∧ ∀ (x : ReadoutRecord) (rings : Table Ring 8), s.readout.engine = .sending x →
      rings = s.rings.set x.ring (match x.part.half with
        | some h => { s.rings.get x.ring with
            stream := (s.rings.get x.ring).stream.setHalf h
              { (s.rings.get x.ring).stream.half h with state := .full } }
        | none => { s.rings.get x.ring with
            snapshot := { (s.rings.get x.ring).snapshot with state := .frozen } }) →
      (s.egress.held = true → s.egress.dt = [] →
        exec .abortRead s = .next (answered { s with
          rings := rings
          egress := { s.egress with streak := 0 }
          readout := { s.readout with
            engine := .terminating
              { id := x.id, ring := x.ring, part := x.part, gapped := x.gapped,
                wordsSent := x.wordsSent, pending := true }
            aborted := min (s.readout.aborted + 1) 4294967295 } } q .ok []))
      ∧ ∀ kept : List DtFrame, s.egress.held = false →
        kept = s.egress.dt.filter (fun f => match f with
          | .reduced _ => true
          | .readout _ => false) →
        (∀ f, .readout f ∈ s.egress.dt → f.id = x.id) →
        (kept.length < 16 → exec .abortRead s = .next (answered { s with
          rings := rings
          egress := { s.egress with
            dt := kept ++ [.readout
              { id := x.id, ring := x.ring, part := x.part, offset := x.wordsSent, words := [],
                gapped := x.gapped, last := true, aborted := true }]
            streak := if kept = [] then 0 else s.egress.streak }
          readout := { s.readout with
            engine := .terminating
              { id := x.id, ring := x.ring, part := x.part, gapped := x.gapped,
                wordsSent := x.wordsSent, pending := false }
            aborted := min (s.readout.aborted + 1) 4294967295 } } q .ok []))
        ∧ (16 ≤ kept.length → exec .abortRead s = .next (answered { s with
          rings := rings
          egress := { s.egress with dt := kept }
          readout := { s.readout with
            engine := .terminating
              { id := x.id, ring := x.ring, part := x.part, gapped := x.gapped,
                wordsSent := x.wordsSent, pending := true }
            aborted := min (s.readout.aborted + 1) 4294967295 } } q .ok []))

/-- READ_RING accepted while the C-port is UP: in the same event the engine places its first frames in DT,
one after the other from readout offset 0 and each with 48 words or what is left, until the readout is
placed whole, 8 of its frames stand in DT, or DT holds 16; a readout of no words places one frame. The
words are those of the part, in their order (R94, R95, R96, R97, section 5.7). That the frames are placed in
the event of the acceptance is the model's reading of section 5.7 (assumption 11). -/
def Obligations.AcceptedReadoutPlacesItsFirstFrames : Prop :=
  ∀ (s : State) (q : Request) (ring part : Byte) (k : Fin 8) (p : RingPart) (r claimed : Ring)
    (total start : Nat) (gapped : Bool),
    Executes s q 0x09 → q.args = [ring, part] → k.val = ring.toNat → r = s.rings.get k →
    part.toNat ≤ 2 →
    p = (if part.toNat = 0 then .halfA else if part.toNat = 1 then .halfB else .snapshot) →
    s.readout.engine = .free → s.egress.held = false → r.enabled = true →
    r.base + r.length ≤ 65536 →
    ((∃ h, p.half = some h ∧ r.mode = .stream ∧ (r.stream.half h).state = .full
        ∧ total = (r.stream.half h).fill ∧ 1 ≤ total ∧ total ≤ r.length / 2
        ∧ start = r.base + (if h = .a then 0 else r.length / 2)
        ∧ gapped = (r.stream.half h).gapped
        ∧ claimed = { r with
            stream := r.stream.setHalf h { r.stream.half h with state := .reading } })
      ∨ ∃ c, p = .snapshot ∧ r.mode = .snapshot ∧ r.snapshot.state = .frozen
        ∧ r.snapshot.record = some c ∧ total = c.valid ∧ total ≤ r.length
        ∧ start = (((c.endPosition : Int) - c.valid) % r.length).toNat
        ∧ gapped = r.snapshot.gapped
        ∧ claimed = { r with snapshot := { r.snapshot with state := .reading } }) →
    ∃ (frames : List ReadoutFrame) (y : ReadoutRecord),
      PlacesFrames s
        { id := s.readout.nextId, ring := k, part := p, total := total, start := start,
          gapped := gapped, nextOffset := 0, wordsSent := 0, framesQueued := 0, lastQueued := false }
        y (16 - s.egress.dt.length) frames
      ∧ exec .readRing s = .next (answered { s with
        rings := s.rings.set k claimed
        egress := { s.egress with dt := s.egress.dt ++ frames.map .readout }
        readout := { s.readout with
          engine := .sending y, nextId := (s.readout.nextId + 1) % 256 } } q .accepted
        (byteOf s.readout.nextId :: bytes4 total))

/-- RELEASE_HALF, FLUSH_RING and REARM_RING: the checks of R78, R79 and R88 in their order. A released
half is EMPTY with its flags clear, or FILLING at once with the held mark as its gapped flag where the
writer awaits it. A flush closes the FILLING half as R75 states, with its requests. A rearmed ring is in
RUN at position 0 with nothing valid and no capture record. -/
def Obligations.RingRequestsMoveTheRing : Prop :=
  (∀ (s : State) (q : Request) (ring half : Byte), Executes s q 0x0B → q.args = [ring, half] →
    (8 ≤ ring.toNat ∨ 2 ≤ half.toNat → exec .releaseHalf s = .next (answered s q .badValue []))
    ∧ ∀ (k : Fin 8) (h : HalfId) (r : Ring), k.val = ring.toNat → r = s.rings.get k →
      half.toNat = (if h = .a then 0 else 1) →
      (r.enabled = false → exec .releaseHalf s = .next (answered s q .state []))
      ∧ (r.enabled = true → r.mode = .snapshot →
        exec .releaseHalf s = .next (answered s q .badValue []))
      ∧ (r.enabled = true → r.mode = .stream →
        ((r.stream.half h).state = .reading → exec .releaseHalf s = .next (answered s q .busy []))
        ∧ ((r.stream.half h).state = .empty ∨ (r.stream.half h).state = .filling →
          exec .releaseHalf s = .next (answered s q .state []))
        ∧ ((r.stream.half h).state = .full → r.stream.writer ≠ .stalled h →
          exec .releaseHalf s = .next (answered (s.setRing k { r with
            stream := r.stream.setHalf h ⟨.empty, 0, false, false⟩ }) q .ok []))
        ∧ ((r.stream.half h).state = .full → r.stream.writer = .stalled h →
          exec .releaseHalf s = .next (answered (s.setRing k { r with
            stream := { r.stream.setHalf h ⟨.filling, 0, r.stream.heldMark, false⟩ with
              writer := .filling h, heldMark := false } }) q .ok []))))
  ∧ (∀ (s : State) (q : Request) (ring : Byte), Executes s q 0x0C → q.args = [ring] →
    (8 ≤ ring.toNat → exec .flushRing s = .next (answered s q .badValue []))
    ∧ ∀ (k : Fin 8) (r : Ring), k.val = ring.toNat → r = s.rings.get k →
      (r.enabled = false → exec .flushRing s = .next (answered s q .state []))
      ∧ (r.enabled = true → r.mode = .snapshot →
        exec .flushRing s = .next (answered s q .badValue []))
      ∧ (∀ h, r.enabled = true → r.mode = .stream → r.stream.writer = .stalled h →
        exec .flushRing s = .next (answered s q .state []))
      ∧ (∀ h, r.enabled = true → r.mode = .stream → r.stream.writer = .filling h →
        ((r.stream.half h).fill = 0 → exec .flushRing s = .next (answered s q .state []))
        ∧ ((r.stream.half h).fill ≠ 0 → (r.stream.half h.other).state ≠ .filling →
          ∃ y, HalfClosed r y h ∧ exec .flushRing s = .next (answered { s.setRing k y with
            events := { s.events with
              requests := s.events.requests ++ closingRequests k r h s.timebase } } q .ok []))))
  ∧ ∀ (s : State) (q : Request) (ring : Byte), Executes s q 0x0E → q.args = [ring] →
    (8 ≤ ring.toNat → exec .rearmRing s = .next (answered s q .badValue []))
    ∧ ∀ (k : Fin 8) (r : Ring), k.val = ring.toNat → r = s.rings.get k →
      (r.enabled = false → exec .rearmRing s = .next (answered s q .state []))
      ∧ (r.enabled = true → r.mode = .stream →
        exec .rearmRing s = .next (answered s q .badValue []))
      ∧ (r.enabled = true → r.mode = .snapshot → r.snapshot.state = .reading →
        exec .rearmRing s = .next (answered s q .busy []))
      ∧ (r.enabled = true → r.mode = .snapshot →
        (r.snapshot.state = .run ∨ r.snapshot.state = .countdown) →
        exec .rearmRing s = .next (answered s q .state []))
      ∧ (r.enabled = true → r.mode = .snapshot → r.snapshot.state = .frozen →
        exec .rearmRing s = .next (answered (s.setRing k { r with
          snapshot := ⟨.run, 0, 0, 0, false, none, none⟩ }) q .ok []))

/-- EVENT_ACK(s): where a SENT record has serial s, it and every record before it leave the queue, the
retry count is 0, the timer restarts while ACTIVE with SENT records left and stops with none, a pending
loss then queues its LOSS record, and the reply is OK with the number removed; else STATE (R111, R119,
R120). -/
def Obligations.EventAckRemovesRecords : Prop :=
  ∀ (s : State) (q : Request) (b₁ b₀ : Byte) (serial : Nat), Executes s q 0x10 → q.args = [b₁, b₀] →
    serial = b₁.toNat * 256 + b₀.toNat →
    ((∀ r ∈ s.events.queue, ¬ (r.serial = serial ∧ r.sent = .sent)) →
      exec .eventAck s = .next (answered s q .state []))
    ∧ ∀ (gone rest : List EventRecord) (r : EventRecord) (timer : Timer) (loss : List EventRecord),
      s.events.queue = gone ++ r :: rest → r.serial = serial → r.sent = .sent →
      (∀ x ∈ gone, x.serial ≠ serial) → s.events.queue.length ≤ 128 → s.events.serial < 65536 →
      timer = (if s.events.delivery = .active then
          (if ∃ x ∈ rest, x.sent = .sent then
            .running (s.management.global.retransmitTimeout * 1000) else .stopped)
        else s.events.timer) →
      loss = (if s.events.pendingLoss = 0 then []
        else [{ serial := s.events.serial, kind := .loss, subject := 0, channel := none, value := none,
                count := some s.events.pendingLoss, time := s.timebase, sent := .unsent }]) →
      exec .eventAck s = .next (answered { s with events := { s.events with
        queue := rest ++ loss
        retry := 0
        timer := timer
        pendingLoss := 0
        serial := (s.events.serial + loss.length) % 65536 } } q .ok [byteOf (gone.length + 1)])

/-- EVENT_RESYNC: refused with STATE in SUSPENDED; in FAILED and ACTIVE every SENT record becomes UNSENT,
the retry count 0, the timer stopped and delivery ACTIVE, with no record removed and the serial counter
and loss counts kept, and the reply is OK; the next EVENT frame then carries records from the head of the
queue (R122). -/
def Obligations.EventResyncReturnsToUnsent : Prop :=
  ∀ (s : State) (q : Request) (e : EventUnit), Executes s q 0x11 → q.args = [] →
    e = { s.events with
      queue := s.events.queue.map (fun r => { r with sent := .unsent })
      retry := 0
      timer := .stopped
      delivery := .active } →
    (s.events.delivery = .suspended → exec .eventResync s = .next (answered s q .state []))
    ∧ (s.events.delivery ≠ .suspended →
      exec .eventResync s = .next (answered { s with events := e } q .ok []))
    ∧ ∀ w : Nat, e.frameRecords w = e.queue.take (min 4 (min w e.queue.length))

/-- RESTART: while a block other than the event unit has still to take its reset, one such block takes it in
an event of its own, the values its chapter gives for RESTART, keeping the tables' written fields and enabled
flags, capture memory, GLOBAL and the next readout id; the capture unit's event frees the readout engine and
empties the egress scheduler's queues (R5, R10, R24, R43, R68, R104, R145, R148, R164). When every such block
has, the event unit's reset sets the timebase to 0, empties its queue and queues STARTED(RESTART) alone with
serial 0 and time mark 0; at once the reply cache and MR are emptied and the RESTART reply is the only one in
them (R3, R112, R113, R114, R147). That the event unit comes last, with nothing before the reply, is the
model's reading of R113, which has the reply granted before STARTED(RESTART) (assumption 25). Where nothing
comes between, the seven commands leave the whole part so. Which block comes next is free (assumption 24). A
hold sent that was on goes off, with a GO where the port is UP, when the port takes the emptying it was told
of (R170, assumption 17). -/
def Obligations.RestartResetsRuntimeState : Prop :=
  (∀ (s : State) (q : Request), Executes s q 0x12 → q.args = [] →
    ((∃ b, takesPart 0x12 b ∧ b ∉ s.management.shares.taken) → ∃ (b : Block) (t : State),
      takesPart 0x12 b ∧ b ∉ s.management.shares.taken ∧ BlockRestarted s t b
      ∧ exec .restart s = .next (shareTaken t b))
    ∧ ((∀ b, takesPart 0x12 b → b ∈ s.management.shares.taken) → ∃ t : State,
      exec .restart s = .next (answered t q .ok []) ∧ (∀ tag, t.management.cache.get tag = none)
      ∧ t = { s with
          timebase := 0
          events := eventsRestarted s.events s.cPort.link
          management := { s.management with cache := t.management.cache }
          egress := { s.egress with mr := [] } })
    ∧ (s.management.shares.taken = [] → ∃ t : State,
      runAll (List.replicate 7 .restart) s = .next (answered t q .ok [])
      ∧ (∀ tag, t.management.cache.get tag = none)
      ∧ ClassifierRestarted s t ∧ SlotsRestarted s t ∧ RulesRestarted s t ∧ RingsRestarted s t
      ∧ (∀ p, t.port p = { s.port p with
          framesGood := 0, crcErrors := 0, malformed := 0
          occupancy := (s.port p).occupancy ++ [.removed 0] })
      ∧ t = { s with
          timebase := 0
          classifier := t.classifier
          slots := t.slots
          rules := t.rules
          rings := t.rings
          readout := { s.readout with engine := .free, completed := 0, aborted := 0 }
          events := eventsRestarted s.events s.cPort.link
          egress := egressRestarted s.egress
          fPort := t.fPort
          cPort := t.cPort
          management := { s.management with cache := t.management.cache }
          choices := s.choices + 6 }))
  ∧ ∀ (p : PortId) (s : State), (s.port p).occupancy = [.removed 0] →
    exec (.holdSentChange p) s = .next (s.setPort p { s.port p with
      occupancy := []
      holdSent := false
      line := (s.port p).line ++ (if (s.port p).holdSent = true ∧ (s.port p).link = .up
        then [.symbol .go] else []) })
end

