-- ==== Sys2Proof/Laws/State.lean ====
section
/-! SUPPORT. What each update of the state leaves in each field, so that no later proof unfolds an
update. -/

namespace Sys2Proof.Machine

/-! ### Entries of the tables -/

@[simp] theorem State.setChannel_phase (s : State) (c : Fin 64) (x : Channel) :
    (s.setChannel c x).phase = s.phase := rfl

@[simp] theorem State.setChannel_straps (s : State) (c : Fin 64) (x : Channel) :
    (s.setChannel c x).straps = s.straps := rfl

@[simp] theorem State.setChannel_timebase (s : State) (c : Fin 64) (x : Channel) :
    (s.setChannel c x).timebase = s.timebase := rfl

@[simp] theorem State.setChannel_fPort (s : State) (c : Fin 64) (x : Channel) :
    (s.setChannel c x).fPort = s.fPort := rfl

@[simp] theorem State.setChannel_cPort (s : State) (c : Fin 64) (x : Channel) :
    (s.setChannel c x).cPort = s.cPort := rfl

@[simp] theorem State.setChannel_slots (s : State) (c : Fin 64) (x : Channel) :
    (s.setChannel c x).slots = s.slots := rfl

@[simp] theorem State.setChannel_rules (s : State) (c : Fin 64) (x : Channel) :
    (s.setChannel c x).rules = s.rules := rfl

@[simp] theorem State.setChannel_rings (s : State) (c : Fin 64) (x : Channel) :
    (s.setChannel c x).rings = s.rings := rfl

@[simp] theorem State.setChannel_memory (s : State) (c : Fin 64) (x : Channel) :
    (s.setChannel c x).memory = s.memory := rfl

@[simp] theorem State.setChannel_readout (s : State) (c : Fin 64) (x : Channel) :
    (s.setChannel c x).readout = s.readout := rfl

@[simp] theorem State.setChannel_events (s : State) (c : Fin 64) (x : Channel) :
    (s.setChannel c x).events = s.events := rfl

@[simp] theorem State.setChannel_egress (s : State) (c : Fin 64) (x : Channel) :
    (s.setChannel c x).egress = s.egress := rfl

@[simp] theorem State.setChannel_management (s : State) (c : Fin 64) (x : Channel) :
    (s.setChannel c x).management = s.management := rfl

@[simp] theorem State.setChannel_pending (s : State) (c : Fin 64) (x : Channel) :
    (s.setChannel c x).pending = s.pending := rfl

@[simp] theorem State.setChannel_choices (s : State) (c : Fin 64) (x : Channel) :
    (s.setChannel c x).choices = s.choices := rfl

@[simp] theorem State.setChannel_classifier_nodes (s : State) (c : Fin 64) (x : Channel) :
    (s.setChannel c x).classifier.nodes = s.classifier.nodes := rfl

@[simp] theorem State.setChannel_classifier_channels (s : State) (c : Fin 64) (x : Channel) :
    (s.setChannel c x).classifier.channels = s.classifier.channels.set c x := rfl

@[simp] theorem State.setChannel_classifier_staleFrames (s : State) (c : Fin 64) (x : Channel) :
    (s.setChannel c x).classifier.staleFrames = s.classifier.staleFrames := rfl

@[simp] theorem State.setChannel_classifier_inbox (s : State) (c : Fin 64) (x : Channel) :
    (s.setChannel c x).classifier.inbox = s.classifier.inbox := rfl

@[simp] theorem State.setNode_phase (s : State) (n : Fin 30) (x : NodeEntry) :
    (s.setNode n x).phase = s.phase := rfl

@[simp] theorem State.setNode_straps (s : State) (n : Fin 30) (x : NodeEntry) :
    (s.setNode n x).straps = s.straps := rfl

@[simp] theorem State.setNode_timebase (s : State) (n : Fin 30) (x : NodeEntry) :
    (s.setNode n x).timebase = s.timebase := rfl

@[simp] theorem State.setNode_fPort (s : State) (n : Fin 30) (x : NodeEntry) :
    (s.setNode n x).fPort = s.fPort := rfl

@[simp] theorem State.setNode_cPort (s : State) (n : Fin 30) (x : NodeEntry) :
    (s.setNode n x).cPort = s.cPort := rfl

@[simp] theorem State.setNode_slots (s : State) (n : Fin 30) (x : NodeEntry) :
    (s.setNode n x).slots = s.slots := rfl

@[simp] theorem State.setNode_rules (s : State) (n : Fin 30) (x : NodeEntry) :
    (s.setNode n x).rules = s.rules := rfl

@[simp] theorem State.setNode_rings (s : State) (n : Fin 30) (x : NodeEntry) :
    (s.setNode n x).rings = s.rings := rfl

@[simp] theorem State.setNode_memory (s : State) (n : Fin 30) (x : NodeEntry) :
    (s.setNode n x).memory = s.memory := rfl

@[simp] theorem State.setNode_readout (s : State) (n : Fin 30) (x : NodeEntry) :
    (s.setNode n x).readout = s.readout := rfl

@[simp] theorem State.setNode_events (s : State) (n : Fin 30) (x : NodeEntry) :
    (s.setNode n x).events = s.events := rfl

@[simp] theorem State.setNode_egress (s : State) (n : Fin 30) (x : NodeEntry) :
    (s.setNode n x).egress = s.egress := rfl

@[simp] theorem State.setNode_management (s : State) (n : Fin 30) (x : NodeEntry) :
    (s.setNode n x).management = s.management := rfl

@[simp] theorem State.setNode_pending (s : State) (n : Fin 30) (x : NodeEntry) :
    (s.setNode n x).pending = s.pending := rfl

@[simp] theorem State.setNode_choices (s : State) (n : Fin 30) (x : NodeEntry) :
    (s.setNode n x).choices = s.choices := rfl

@[simp] theorem State.setNode_classifier_nodes (s : State) (n : Fin 30) (x : NodeEntry) :
    (s.setNode n x).classifier.nodes = s.classifier.nodes.set n x := rfl

@[simp] theorem State.setNode_classifier_channels (s : State) (n : Fin 30) (x : NodeEntry) :
    (s.setNode n x).classifier.channels = s.classifier.channels := rfl

@[simp] theorem State.setNode_classifier_staleFrames (s : State) (n : Fin 30) (x : NodeEntry) :
    (s.setNode n x).classifier.staleFrames = s.classifier.staleFrames := rfl

@[simp] theorem State.setNode_classifier_inbox (s : State) (n : Fin 30) (x : NodeEntry) :
    (s.setNode n x).classifier.inbox = s.classifier.inbox := rfl

@[simp] theorem State.setSlot_phase (s : State) (k : Fin 16) (x : Slot) :
    (s.setSlot k x).phase = s.phase := rfl

@[simp] theorem State.setSlot_straps (s : State) (k : Fin 16) (x : Slot) :
    (s.setSlot k x).straps = s.straps := rfl

@[simp] theorem State.setSlot_timebase (s : State) (k : Fin 16) (x : Slot) :
    (s.setSlot k x).timebase = s.timebase := rfl

@[simp] theorem State.setSlot_fPort (s : State) (k : Fin 16) (x : Slot) :
    (s.setSlot k x).fPort = s.fPort := rfl

@[simp] theorem State.setSlot_cPort (s : State) (k : Fin 16) (x : Slot) :
    (s.setSlot k x).cPort = s.cPort := rfl

@[simp] theorem State.setSlot_classifier (s : State) (k : Fin 16) (x : Slot) :
    (s.setSlot k x).classifier = s.classifier := rfl

@[simp] theorem State.setSlot_rules (s : State) (k : Fin 16) (x : Slot) :
    (s.setSlot k x).rules = s.rules := rfl

@[simp] theorem State.setSlot_rings (s : State) (k : Fin 16) (x : Slot) :
    (s.setSlot k x).rings = s.rings := rfl

@[simp] theorem State.setSlot_memory (s : State) (k : Fin 16) (x : Slot) :
    (s.setSlot k x).memory = s.memory := rfl

@[simp] theorem State.setSlot_readout (s : State) (k : Fin 16) (x : Slot) :
    (s.setSlot k x).readout = s.readout := rfl

@[simp] theorem State.setSlot_events (s : State) (k : Fin 16) (x : Slot) :
    (s.setSlot k x).events = s.events := rfl

@[simp] theorem State.setSlot_egress (s : State) (k : Fin 16) (x : Slot) :
    (s.setSlot k x).egress = s.egress := rfl

@[simp] theorem State.setSlot_management (s : State) (k : Fin 16) (x : Slot) :
    (s.setSlot k x).management = s.management := rfl

@[simp] theorem State.setSlot_pending (s : State) (k : Fin 16) (x : Slot) :
    (s.setSlot k x).pending = s.pending := rfl

@[simp] theorem State.setSlot_choices (s : State) (k : Fin 16) (x : Slot) :
    (s.setSlot k x).choices = s.choices := rfl

@[simp] theorem State.setSlot_slots (s : State) (k : Fin 16) (x : Slot) :
    (s.setSlot k x).slots = s.slots.set k x := rfl

@[simp] theorem State.setRule_phase (s : State) (k : Fin 32) (x : Rule) :
    (s.setRule k x).phase = s.phase := rfl

@[simp] theorem State.setRule_straps (s : State) (k : Fin 32) (x : Rule) :
    (s.setRule k x).straps = s.straps := rfl

@[simp] theorem State.setRule_timebase (s : State) (k : Fin 32) (x : Rule) :
    (s.setRule k x).timebase = s.timebase := rfl

@[simp] theorem State.setRule_fPort (s : State) (k : Fin 32) (x : Rule) :
    (s.setRule k x).fPort = s.fPort := rfl

@[simp] theorem State.setRule_cPort (s : State) (k : Fin 32) (x : Rule) :
    (s.setRule k x).cPort = s.cPort := rfl

@[simp] theorem State.setRule_classifier (s : State) (k : Fin 32) (x : Rule) :
    (s.setRule k x).classifier = s.classifier := rfl

@[simp] theorem State.setRule_slots (s : State) (k : Fin 32) (x : Rule) :
    (s.setRule k x).slots = s.slots := rfl

@[simp] theorem State.setRule_rings (s : State) (k : Fin 32) (x : Rule) :
    (s.setRule k x).rings = s.rings := rfl

@[simp] theorem State.setRule_memory (s : State) (k : Fin 32) (x : Rule) :
    (s.setRule k x).memory = s.memory := rfl

@[simp] theorem State.setRule_readout (s : State) (k : Fin 32) (x : Rule) :
    (s.setRule k x).readout = s.readout := rfl

@[simp] theorem State.setRule_events (s : State) (k : Fin 32) (x : Rule) :
    (s.setRule k x).events = s.events := rfl

@[simp] theorem State.setRule_egress (s : State) (k : Fin 32) (x : Rule) :
    (s.setRule k x).egress = s.egress := rfl

@[simp] theorem State.setRule_management (s : State) (k : Fin 32) (x : Rule) :
    (s.setRule k x).management = s.management := rfl

@[simp] theorem State.setRule_pending (s : State) (k : Fin 32) (x : Rule) :
    (s.setRule k x).pending = s.pending := rfl

@[simp] theorem State.setRule_choices (s : State) (k : Fin 32) (x : Rule) :
    (s.setRule k x).choices = s.choices := rfl

@[simp] theorem State.setRule_rules (s : State) (k : Fin 32) (x : Rule) :
    (s.setRule k x).rules = s.rules.set k x := rfl

@[simp] theorem State.setRing_phase (s : State) (k : Fin 8) (x : Ring) :
    (s.setRing k x).phase = s.phase := rfl

@[simp] theorem State.setRing_straps (s : State) (k : Fin 8) (x : Ring) :
    (s.setRing k x).straps = s.straps := rfl

@[simp] theorem State.setRing_timebase (s : State) (k : Fin 8) (x : Ring) :
    (s.setRing k x).timebase = s.timebase := rfl

@[simp] theorem State.setRing_fPort (s : State) (k : Fin 8) (x : Ring) :
    (s.setRing k x).fPort = s.fPort := rfl

@[simp] theorem State.setRing_cPort (s : State) (k : Fin 8) (x : Ring) :
    (s.setRing k x).cPort = s.cPort := rfl

@[simp] theorem State.setRing_classifier (s : State) (k : Fin 8) (x : Ring) :
    (s.setRing k x).classifier = s.classifier := rfl

@[simp] theorem State.setRing_slots (s : State) (k : Fin 8) (x : Ring) :
    (s.setRing k x).slots = s.slots := rfl

@[simp] theorem State.setRing_rules (s : State) (k : Fin 8) (x : Ring) :
    (s.setRing k x).rules = s.rules := rfl

@[simp] theorem State.setRing_memory (s : State) (k : Fin 8) (x : Ring) :
    (s.setRing k x).memory = s.memory := rfl

@[simp] theorem State.setRing_readout (s : State) (k : Fin 8) (x : Ring) :
    (s.setRing k x).readout = s.readout := rfl

@[simp] theorem State.setRing_events (s : State) (k : Fin 8) (x : Ring) :
    (s.setRing k x).events = s.events := rfl

@[simp] theorem State.setRing_egress (s : State) (k : Fin 8) (x : Ring) :
    (s.setRing k x).egress = s.egress := rfl

@[simp] theorem State.setRing_management (s : State) (k : Fin 8) (x : Ring) :
    (s.setRing k x).management = s.management := rfl

@[simp] theorem State.setRing_pending (s : State) (k : Fin 8) (x : Ring) :
    (s.setRing k x).pending = s.pending := rfl

@[simp] theorem State.setRing_choices (s : State) (k : Fin 8) (x : Ring) :
    (s.setRing k x).choices = s.choices := rfl

@[simp] theorem State.setRing_rings (s : State) (k : Fin 8) (x : Ring) :
    (s.setRing k x).rings = s.rings.set k x := rfl

/-! ### Ports -/

@[simp] theorem State.setPort_f_phase (s : State) (x : Port) :
    (s.setPort .f x).phase = s.phase := rfl

@[simp] theorem State.setPort_f_straps (s : State) (x : Port) :
    (s.setPort .f x).straps = s.straps := rfl

@[simp] theorem State.setPort_f_timebase (s : State) (x : Port) :
    (s.setPort .f x).timebase = s.timebase := rfl

@[simp] theorem State.setPort_f_cPort (s : State) (x : Port) :
    (s.setPort .f x).cPort = s.cPort := rfl

@[simp] theorem State.setPort_f_classifier (s : State) (x : Port) :
    (s.setPort .f x).classifier = s.classifier := rfl

@[simp] theorem State.setPort_f_slots (s : State) (x : Port) :
    (s.setPort .f x).slots = s.slots := rfl

@[simp] theorem State.setPort_f_rules (s : State) (x : Port) :
    (s.setPort .f x).rules = s.rules := rfl

@[simp] theorem State.setPort_f_rings (s : State) (x : Port) :
    (s.setPort .f x).rings = s.rings := rfl

@[simp] theorem State.setPort_f_memory (s : State) (x : Port) :
    (s.setPort .f x).memory = s.memory := rfl

@[simp] theorem State.setPort_f_readout (s : State) (x : Port) :
    (s.setPort .f x).readout = s.readout := rfl

@[simp] theorem State.setPort_f_events (s : State) (x : Port) :
    (s.setPort .f x).events = s.events := rfl

@[simp] theorem State.setPort_f_egress (s : State) (x : Port) :
    (s.setPort .f x).egress = s.egress := rfl

@[simp] theorem State.setPort_f_management (s : State) (x : Port) :
    (s.setPort .f x).management = s.management := rfl

@[simp] theorem State.setPort_f_pending (s : State) (x : Port) :
    (s.setPort .f x).pending = s.pending := rfl

@[simp] theorem State.setPort_f_choices (s : State) (x : Port) :
    (s.setPort .f x).choices = s.choices := rfl

@[simp] theorem State.setPort_f_fPort (s : State) (x : Port) :
    (s.setPort .f x).fPort = x := rfl

@[simp] theorem State.setPort_c_phase (s : State) (x : Port) :
    (s.setPort .c x).phase = s.phase := rfl

@[simp] theorem State.setPort_c_straps (s : State) (x : Port) :
    (s.setPort .c x).straps = s.straps := rfl

@[simp] theorem State.setPort_c_timebase (s : State) (x : Port) :
    (s.setPort .c x).timebase = s.timebase := rfl

@[simp] theorem State.setPort_c_fPort (s : State) (x : Port) :
    (s.setPort .c x).fPort = s.fPort := rfl

@[simp] theorem State.setPort_c_classifier (s : State) (x : Port) :
    (s.setPort .c x).classifier = s.classifier := rfl

@[simp] theorem State.setPort_c_slots (s : State) (x : Port) :
    (s.setPort .c x).slots = s.slots := rfl

@[simp] theorem State.setPort_c_rules (s : State) (x : Port) :
    (s.setPort .c x).rules = s.rules := rfl

@[simp] theorem State.setPort_c_rings (s : State) (x : Port) :
    (s.setPort .c x).rings = s.rings := rfl

@[simp] theorem State.setPort_c_memory (s : State) (x : Port) :
    (s.setPort .c x).memory = s.memory := rfl

@[simp] theorem State.setPort_c_readout (s : State) (x : Port) :
    (s.setPort .c x).readout = s.readout := rfl

@[simp] theorem State.setPort_c_events (s : State) (x : Port) :
    (s.setPort .c x).events = s.events := rfl

@[simp] theorem State.setPort_c_egress (s : State) (x : Port) :
    (s.setPort .c x).egress = s.egress := rfl

@[simp] theorem State.setPort_c_management (s : State) (x : Port) :
    (s.setPort .c x).management = s.management := rfl

@[simp] theorem State.setPort_c_pending (s : State) (x : Port) :
    (s.setPort .c x).pending = s.pending := rfl

@[simp] theorem State.setPort_c_choices (s : State) (x : Port) :
    (s.setPort .c x).choices = s.choices := rfl

@[simp] theorem State.setPort_c_cPort (s : State) (x : Port) :
    (s.setPort .c x).cPort = x := rfl

@[simp] theorem State.setPort_phase (s : State) (p : PortId) (x : Port) :
    (s.setPort p x).phase = s.phase := by cases p <;> rfl

@[simp] theorem State.setPort_straps (s : State) (p : PortId) (x : Port) :
    (s.setPort p x).straps = s.straps := by cases p <;> rfl

@[simp] theorem State.setPort_timebase (s : State) (p : PortId) (x : Port) :
    (s.setPort p x).timebase = s.timebase := by cases p <;> rfl

@[simp] theorem State.setPort_classifier (s : State) (p : PortId) (x : Port) :
    (s.setPort p x).classifier = s.classifier := by cases p <;> rfl

@[simp] theorem State.setPort_slots (s : State) (p : PortId) (x : Port) :
    (s.setPort p x).slots = s.slots := by cases p <;> rfl

@[simp] theorem State.setPort_rules (s : State) (p : PortId) (x : Port) :
    (s.setPort p x).rules = s.rules := by cases p <;> rfl

@[simp] theorem State.setPort_rings (s : State) (p : PortId) (x : Port) :
    (s.setPort p x).rings = s.rings := by cases p <;> rfl

@[simp] theorem State.setPort_memory (s : State) (p : PortId) (x : Port) :
    (s.setPort p x).memory = s.memory := by cases p <;> rfl

@[simp] theorem State.setPort_readout (s : State) (p : PortId) (x : Port) :
    (s.setPort p x).readout = s.readout := by cases p <;> rfl

@[simp] theorem State.setPort_events (s : State) (p : PortId) (x : Port) :
    (s.setPort p x).events = s.events := by cases p <;> rfl

@[simp] theorem State.setPort_egress (s : State) (p : PortId) (x : Port) :
    (s.setPort p x).egress = s.egress := by cases p <;> rfl

@[simp] theorem State.setPort_management (s : State) (p : PortId) (x : Port) :
    (s.setPort p x).management = s.management := by cases p <;> rfl

@[simp] theorem State.setPort_pending (s : State) (p : PortId) (x : Port) :
    (s.setPort p x).pending = s.pending := by cases p <;> rfl

@[simp] theorem State.setPort_choices (s : State) (p : PortId) (x : Port) :
    (s.setPort p x).choices = s.choices := by cases p <;> rfl

@[simp] theorem State.chargeMalformed_phase (s : State) (p : PortId) :
    (s.chargeMalformed p).phase = s.phase := by cases p <;> rfl

@[simp] theorem State.chargeMalformed_straps (s : State) (p : PortId) :
    (s.chargeMalformed p).straps = s.straps := by cases p <;> rfl

@[simp] theorem State.chargeMalformed_timebase (s : State) (p : PortId) :
    (s.chargeMalformed p).timebase = s.timebase := by cases p <;> rfl

@[simp] theorem State.chargeMalformed_classifier (s : State) (p : PortId) :
    (s.chargeMalformed p).classifier = s.classifier := by cases p <;> rfl

@[simp] theorem State.chargeMalformed_slots (s : State) (p : PortId) :
    (s.chargeMalformed p).slots = s.slots := by cases p <;> rfl

@[simp] theorem State.chargeMalformed_rules (s : State) (p : PortId) :
    (s.chargeMalformed p).rules = s.rules := by cases p <;> rfl

@[simp] theorem State.chargeMalformed_rings (s : State) (p : PortId) :
    (s.chargeMalformed p).rings = s.rings := by cases p <;> rfl

@[simp] theorem State.chargeMalformed_memory (s : State) (p : PortId) :
    (s.chargeMalformed p).memory = s.memory := by cases p <;> rfl

@[simp] theorem State.chargeMalformed_readout (s : State) (p : PortId) :
    (s.chargeMalformed p).readout = s.readout := by cases p <;> rfl

@[simp] theorem State.chargeMalformed_events (s : State) (p : PortId) :
    (s.chargeMalformed p).events = s.events := by cases p <;> rfl

@[simp] theorem State.chargeMalformed_egress (s : State) (p : PortId) :
    (s.chargeMalformed p).egress = s.egress := by cases p <;> rfl

@[simp] theorem State.chargeMalformed_management (s : State) (p : PortId) :
    (s.chargeMalformed p).management = s.management := by cases p <;> rfl

@[simp] theorem State.chargeMalformed_pending (s : State) (p : PortId) :
    (s.chargeMalformed p).pending = s.pending := by cases p <;> rfl

@[simp] theorem State.chargeMalformed_choices (s : State) (p : PortId) :
    (s.chargeMalformed p).choices = s.choices := by cases p <;> rfl

@[simp] theorem State.tellOccupancy_phase (s : State) (p : PortId) (o : OccupancyChange) :
    (s.tellOccupancy p o).phase = s.phase := by cases p <;> rfl

@[simp] theorem State.tellOccupancy_straps (s : State) (p : PortId) (o : OccupancyChange) :
    (s.tellOccupancy p o).straps = s.straps := by cases p <;> rfl

@[simp] theorem State.tellOccupancy_timebase (s : State) (p : PortId) (o : OccupancyChange) :
    (s.tellOccupancy p o).timebase = s.timebase := by cases p <;> rfl

@[simp] theorem State.tellOccupancy_classifier (s : State) (p : PortId) (o : OccupancyChange) :
    (s.tellOccupancy p o).classifier = s.classifier := by cases p <;> rfl

@[simp] theorem State.tellOccupancy_slots (s : State) (p : PortId) (o : OccupancyChange) :
    (s.tellOccupancy p o).slots = s.slots := by cases p <;> rfl

@[simp] theorem State.tellOccupancy_rules (s : State) (p : PortId) (o : OccupancyChange) :
    (s.tellOccupancy p o).rules = s.rules := by cases p <;> rfl

@[simp] theorem State.tellOccupancy_rings (s : State) (p : PortId) (o : OccupancyChange) :
    (s.tellOccupancy p o).rings = s.rings := by cases p <;> rfl

@[simp] theorem State.tellOccupancy_memory (s : State) (p : PortId) (o : OccupancyChange) :
    (s.tellOccupancy p o).memory = s.memory := by cases p <;> rfl

@[simp] theorem State.tellOccupancy_readout (s : State) (p : PortId) (o : OccupancyChange) :
    (s.tellOccupancy p o).readout = s.readout := by cases p <;> rfl

@[simp] theorem State.tellOccupancy_events (s : State) (p : PortId) (o : OccupancyChange) :
    (s.tellOccupancy p o).events = s.events := by cases p <;> rfl

@[simp] theorem State.tellOccupancy_egress (s : State) (p : PortId) (o : OccupancyChange) :
    (s.tellOccupancy p o).egress = s.egress := by cases p <;> rfl

@[simp] theorem State.tellOccupancy_management (s : State) (p : PortId) (o : OccupancyChange) :
    (s.tellOccupancy p o).management = s.management := by cases p <;> rfl

@[simp] theorem State.tellOccupancy_pending (s : State) (p : PortId) (o : OccupancyChange) :
    (s.tellOccupancy p o).pending = s.pending := by cases p <;> rfl

@[simp] theorem State.tellOccupancy_choices (s : State) (p : PortId) (o : OccupancyChange) :
    (s.tellOccupancy p o).choices = s.choices := by cases p <;> rfl

/-! ### Enqueue requests -/

@[simp] theorem State.requestEvent_phase (s : State) (r : EventRequest) :
    (s.requestEvent r).phase = s.phase := rfl

@[simp] theorem State.requestEvent_straps (s : State) (r : EventRequest) :
    (s.requestEvent r).straps = s.straps := rfl

@[simp] theorem State.requestEvent_timebase (s : State) (r : EventRequest) :
    (s.requestEvent r).timebase = s.timebase := rfl

@[simp] theorem State.requestEvent_fPort (s : State) (r : EventRequest) :
    (s.requestEvent r).fPort = s.fPort := rfl

@[simp] theorem State.requestEvent_cPort (s : State) (r : EventRequest) :
    (s.requestEvent r).cPort = s.cPort := rfl

@[simp] theorem State.requestEvent_classifier (s : State) (r : EventRequest) :
    (s.requestEvent r).classifier = s.classifier := rfl

@[simp] theorem State.requestEvent_slots (s : State) (r : EventRequest) :
    (s.requestEvent r).slots = s.slots := rfl

@[simp] theorem State.requestEvent_rules (s : State) (r : EventRequest) :
    (s.requestEvent r).rules = s.rules := rfl

@[simp] theorem State.requestEvent_rings (s : State) (r : EventRequest) :
    (s.requestEvent r).rings = s.rings := rfl

@[simp] theorem State.requestEvent_memory (s : State) (r : EventRequest) :
    (s.requestEvent r).memory = s.memory := rfl

@[simp] theorem State.requestEvent_readout (s : State) (r : EventRequest) :
    (s.requestEvent r).readout = s.readout := rfl

@[simp] theorem State.requestEvent_egress (s : State) (r : EventRequest) :
    (s.requestEvent r).egress = s.egress := rfl

@[simp] theorem State.requestEvent_management (s : State) (r : EventRequest) :
    (s.requestEvent r).management = s.management := rfl

@[simp] theorem State.requestEvent_pending (s : State) (r : EventRequest) :
    (s.requestEvent r).pending = s.pending := rfl

@[simp] theorem State.requestEvent_choices (s : State) (r : EventRequest) :
    (s.requestEvent r).choices = s.choices := rfl

@[simp] theorem State.requestEvent_events_queue (s : State) (r : EventRequest) :
    (s.requestEvent r).events.queue = s.events.queue := rfl

@[simp] theorem State.requestEvent_events_serial (s : State) (r : EventRequest) :
    (s.requestEvent r).events.serial = s.events.serial := rfl

@[simp] theorem State.requestEvent_events_pendingLoss (s : State) (r : EventRequest) :
    (s.requestEvent r).events.pendingLoss = s.events.pendingLoss := rfl

@[simp] theorem State.requestEvent_events_lifetimeLoss (s : State) (r : EventRequest) :
    (s.requestEvent r).events.lifetimeLoss = s.events.lifetimeLoss := rfl

@[simp] theorem State.requestEvent_events_delivery (s : State) (r : EventRequest) :
    (s.requestEvent r).events.delivery = s.events.delivery := rfl

@[simp] theorem State.requestEvent_events_retry (s : State) (r : EventRequest) :
    (s.requestEvent r).events.retry = s.events.retry := rfl

@[simp] theorem State.requestEvent_events_timer (s : State) (r : EventRequest) :
    (s.requestEvent r).events.timer = s.events.timer := rfl

@[simp] theorem State.requestEvent_events_requests (s : State) (r : EventRequest) :
    (s.requestEvent r).events.requests = s.events.requests ++ [r] := rfl

@[simp] theorem State.requestEvent_events_linkChanges (s : State) (r : EventRequest) :
    (s.requestEvent r).events.linkChanges = s.events.linkChanges := rfl

@[simp] theorem State.requestEvents_phase (s : State) (rs : List EventRequest) :
    (s.requestEvents rs).phase = s.phase := rfl

@[simp] theorem State.requestEvents_straps (s : State) (rs : List EventRequest) :
    (s.requestEvents rs).straps = s.straps := rfl

@[simp] theorem State.requestEvents_timebase (s : State) (rs : List EventRequest) :
    (s.requestEvents rs).timebase = s.timebase := rfl

@[simp] theorem State.requestEvents_fPort (s : State) (rs : List EventRequest) :
    (s.requestEvents rs).fPort = s.fPort := rfl

@[simp] theorem State.requestEvents_cPort (s : State) (rs : List EventRequest) :
    (s.requestEvents rs).cPort = s.cPort := rfl

@[simp] theorem State.requestEvents_classifier (s : State) (rs : List EventRequest) :
    (s.requestEvents rs).classifier = s.classifier := rfl

@[simp] theorem State.requestEvents_slots (s : State) (rs : List EventRequest) :
    (s.requestEvents rs).slots = s.slots := rfl

@[simp] theorem State.requestEvents_rules (s : State) (rs : List EventRequest) :
    (s.requestEvents rs).rules = s.rules := rfl

@[simp] theorem State.requestEvents_rings (s : State) (rs : List EventRequest) :
    (s.requestEvents rs).rings = s.rings := rfl

@[simp] theorem State.requestEvents_memory (s : State) (rs : List EventRequest) :
    (s.requestEvents rs).memory = s.memory := rfl

@[simp] theorem State.requestEvents_readout (s : State) (rs : List EventRequest) :
    (s.requestEvents rs).readout = s.readout := rfl

@[simp] theorem State.requestEvents_egress (s : State) (rs : List EventRequest) :
    (s.requestEvents rs).egress = s.egress := rfl

@[simp] theorem State.requestEvents_management (s : State) (rs : List EventRequest) :
    (s.requestEvents rs).management = s.management := rfl

@[simp] theorem State.requestEvents_pending (s : State) (rs : List EventRequest) :
    (s.requestEvents rs).pending = s.pending := rfl

@[simp] theorem State.requestEvents_choices (s : State) (rs : List EventRequest) :
    (s.requestEvents rs).choices = s.choices := rfl

@[simp] theorem State.requestEvents_events_queue (s : State) (rs : List EventRequest) :
    (s.requestEvents rs).events.queue = s.events.queue := rfl

@[simp] theorem State.requestEvents_events_serial (s : State) (rs : List EventRequest) :
    (s.requestEvents rs).events.serial = s.events.serial := rfl

@[simp] theorem State.requestEvents_events_pendingLoss (s : State) (rs : List EventRequest) :
    (s.requestEvents rs).events.pendingLoss = s.events.pendingLoss := rfl

@[simp] theorem State.requestEvents_events_lifetimeLoss (s : State) (rs : List EventRequest) :
    (s.requestEvents rs).events.lifetimeLoss = s.events.lifetimeLoss := rfl

@[simp] theorem State.requestEvents_events_delivery (s : State) (rs : List EventRequest) :
    (s.requestEvents rs).events.delivery = s.events.delivery := rfl

@[simp] theorem State.requestEvents_events_retry (s : State) (rs : List EventRequest) :
    (s.requestEvents rs).events.retry = s.events.retry := rfl

@[simp] theorem State.requestEvents_events_timer (s : State) (rs : List EventRequest) :
    (s.requestEvents rs).events.timer = s.events.timer := rfl

@[simp] theorem State.requestEvents_events_requests (s : State) (rs : List EventRequest) :
    (s.requestEvents rs).events.requests = s.events.requests ++ rs := rfl

@[simp] theorem State.requestEvents_events_linkChanges (s : State) (rs : List EventRequest) :
    (s.requestEvents rs).events.linkChanges = s.events.linkChanges := rfl

/-! ### Streams -/

@[simp] theorem State.offer_phase (s : State) (src : Source) (item : StreamItem) :
    (s.offer src item).phase = s.phase := rfl

@[simp] theorem State.offer_straps (s : State) (src : Source) (item : StreamItem) :
    (s.offer src item).straps = s.straps := rfl

@[simp] theorem State.offer_timebase (s : State) (src : Source) (item : StreamItem) :
    (s.offer src item).timebase = s.timebase := rfl

@[simp] theorem State.offer_fPort (s : State) (src : Source) (item : StreamItem) :
    (s.offer src item).fPort = s.fPort := rfl

@[simp] theorem State.offer_cPort (s : State) (src : Source) (item : StreamItem) :
    (s.offer src item).cPort = s.cPort := rfl

@[simp] theorem State.offer_classifier (s : State) (src : Source) (item : StreamItem) :
    (s.offer src item).classifier = s.classifier := rfl

@[simp] theorem State.offer_memory (s : State) (src : Source) (item : StreamItem) :
    (s.offer src item).memory = s.memory := rfl

@[simp] theorem State.offer_readout (s : State) (src : Source) (item : StreamItem) :
    (s.offer src item).readout = s.readout := rfl

@[simp] theorem State.offer_events (s : State) (src : Source) (item : StreamItem) :
    (s.offer src item).events = s.events := rfl

@[simp] theorem State.offer_egress (s : State) (src : Source) (item : StreamItem) :
    (s.offer src item).egress = s.egress := rfl

@[simp] theorem State.offer_management (s : State) (src : Source) (item : StreamItem) :
    (s.offer src item).management = s.management := rfl

@[simp] theorem State.offer_pending (s : State) (src : Source) (item : StreamItem) :
    (s.offer src item).pending = s.pending := rfl

@[simp] theorem State.offer_choices (s : State) (src : Source) (item : StreamItem) :
    (s.offer src item).choices = s.choices := rfl

@[simp] theorem State.passBy_phase (s : State) (p : Source → Bool) :
    (s.passBy p).phase = s.phase := rfl

@[simp] theorem State.passBy_straps (s : State) (p : Source → Bool) :
    (s.passBy p).straps = s.straps := rfl

@[simp] theorem State.passBy_timebase (s : State) (p : Source → Bool) :
    (s.passBy p).timebase = s.timebase := rfl

@[simp] theorem State.passBy_fPort (s : State) (p : Source → Bool) :
    (s.passBy p).fPort = s.fPort := rfl

@[simp] theorem State.passBy_cPort (s : State) (p : Source → Bool) :
    (s.passBy p).cPort = s.cPort := rfl

@[simp] theorem State.passBy_classifier (s : State) (p : Source → Bool) :
    (s.passBy p).classifier = s.classifier := rfl

@[simp] theorem State.passBy_memory (s : State) (p : Source → Bool) :
    (s.passBy p).memory = s.memory := rfl

@[simp] theorem State.passBy_readout (s : State) (p : Source → Bool) :
    (s.passBy p).readout = s.readout := rfl

@[simp] theorem State.passBy_events (s : State) (p : Source → Bool) :
    (s.passBy p).events = s.events := rfl

@[simp] theorem State.passBy_egress (s : State) (p : Source → Bool) :
    (s.passBy p).egress = s.egress := rfl

@[simp] theorem State.passBy_management (s : State) (p : Source → Bool) :
    (s.passBy p).management = s.management := rfl

@[simp] theorem State.passBy_pending (s : State) (p : Source → Bool) :
    (s.passBy p).pending = s.pending := rfl

@[simp] theorem State.passBy_choices (s : State) (p : Source → Bool) :
    (s.passBy p).choices = s.choices := rfl

/-! ### The readout engine, DT and the link -/

@[simp] theorem State.setEngine_phase (s : State) (e : EngineState) :
    (s.setEngine e).phase = s.phase := rfl

@[simp] theorem State.setEngine_straps (s : State) (e : EngineState) :
    (s.setEngine e).straps = s.straps := rfl

@[simp] theorem State.setEngine_timebase (s : State) (e : EngineState) :
    (s.setEngine e).timebase = s.timebase := rfl

@[simp] theorem State.setEngine_fPort (s : State) (e : EngineState) :
    (s.setEngine e).fPort = s.fPort := rfl

@[simp] theorem State.setEngine_cPort (s : State) (e : EngineState) :
    (s.setEngine e).cPort = s.cPort := rfl

@[simp] theorem State.setEngine_classifier (s : State) (e : EngineState) :
    (s.setEngine e).classifier = s.classifier := rfl

@[simp] theorem State.setEngine_slots (s : State) (e : EngineState) :
    (s.setEngine e).slots = s.slots := rfl

@[simp] theorem State.setEngine_rules (s : State) (e : EngineState) :
    (s.setEngine e).rules = s.rules := rfl

@[simp] theorem State.setEngine_rings (s : State) (e : EngineState) :
    (s.setEngine e).rings = s.rings := rfl

@[simp] theorem State.setEngine_memory (s : State) (e : EngineState) :
    (s.setEngine e).memory = s.memory := rfl

@[simp] theorem State.setEngine_events (s : State) (e : EngineState) :
    (s.setEngine e).events = s.events := rfl

@[simp] theorem State.setEngine_egress (s : State) (e : EngineState) :
    (s.setEngine e).egress = s.egress := rfl

@[simp] theorem State.setEngine_management (s : State) (e : EngineState) :
    (s.setEngine e).management = s.management := rfl

@[simp] theorem State.setEngine_pending (s : State) (e : EngineState) :
    (s.setEngine e).pending = s.pending := rfl

@[simp] theorem State.setEngine_choices (s : State) (e : EngineState) :
    (s.setEngine e).choices = s.choices := rfl

@[simp] theorem State.setEngine_readout_engine (s : State) (e : EngineState) :
    (s.setEngine e).readout.engine = e := rfl

@[simp] theorem State.setEngine_readout_nextId (s : State) (e : EngineState) :
    (s.setEngine e).readout.nextId = s.readout.nextId := rfl

@[simp] theorem State.setEngine_readout_completed (s : State) (e : EngineState) :
    (s.setEngine e).readout.completed = s.readout.completed := rfl

@[simp] theorem State.setEngine_readout_aborted (s : State) (e : EngineState) :
    (s.setEngine e).readout.aborted = s.readout.aborted := rfl

@[simp] theorem State.setDt_phase (s : State) (q : List DtFrame) :
    (s.setDt q).phase = s.phase := rfl

@[simp] theorem State.setDt_straps (s : State) (q : List DtFrame) :
    (s.setDt q).straps = s.straps := rfl

@[simp] theorem State.setDt_timebase (s : State) (q : List DtFrame) :
    (s.setDt q).timebase = s.timebase := rfl

@[simp] theorem State.setDt_fPort (s : State) (q : List DtFrame) :
    (s.setDt q).fPort = s.fPort := rfl

@[simp] theorem State.setDt_cPort (s : State) (q : List DtFrame) :
    (s.setDt q).cPort = s.cPort := rfl

@[simp] theorem State.setDt_classifier (s : State) (q : List DtFrame) :
    (s.setDt q).classifier = s.classifier := rfl

@[simp] theorem State.setDt_slots (s : State) (q : List DtFrame) :
    (s.setDt q).slots = s.slots := rfl

@[simp] theorem State.setDt_rules (s : State) (q : List DtFrame) :
    (s.setDt q).rules = s.rules := rfl

@[simp] theorem State.setDt_rings (s : State) (q : List DtFrame) :
    (s.setDt q).rings = s.rings := rfl

@[simp] theorem State.setDt_memory (s : State) (q : List DtFrame) :
    (s.setDt q).memory = s.memory := rfl

@[simp] theorem State.setDt_readout (s : State) (q : List DtFrame) :
    (s.setDt q).readout = s.readout := rfl

@[simp] theorem State.setDt_events (s : State) (q : List DtFrame) :
    (s.setDt q).events = s.events := rfl

@[simp] theorem State.setDt_management (s : State) (q : List DtFrame) :
    (s.setDt q).management = s.management := rfl

@[simp] theorem State.setDt_pending (s : State) (q : List DtFrame) :
    (s.setDt q).pending = s.pending := rfl

@[simp] theorem State.setDt_choices (s : State) (q : List DtFrame) :
    (s.setDt q).choices = s.choices := rfl

@[simp] theorem State.setDt_egress_fw (s : State) (q : List DtFrame) :
    (s.setDt q).egress.fw = s.egress.fw := rfl

@[simp] theorem State.setDt_egress_dt (s : State) (q : List DtFrame) :
    (s.setDt q).egress.dt = q := rfl

@[simp] theorem State.setDt_egress_mr (s : State) (q : List DtFrame) :
    (s.setDt q).egress.mr = s.egress.mr := rfl

@[simp] theorem State.setDt_egress_ob (s : State) (q : List DtFrame) :
    (s.setDt q).egress.ob = s.egress.ob := rfl

@[simp] theorem State.setDt_egress_openFrame (s : State) (q : List DtFrame) :
    (s.setDt q).egress.openFrame = s.egress.openFrame := rfl

@[simp] theorem State.setDt_egress_holdTimer (s : State) (q : List DtFrame) :
    (s.setDt q).egress.holdTimer = s.egress.holdTimer := rfl

@[simp] theorem State.setDt_egress_streak (s : State) (q : List DtFrame) :
    (s.setDt q).egress.streak = s.egress.streak := rfl

@[simp] theorem State.setDt_egress_fwDrops (s : State) (q : List DtFrame) :
    (s.setDt q).egress.fwDrops = s.egress.fwDrops := rfl

@[simp] theorem State.setDt_egress_downDiscards (s : State) (q : List DtFrame) :
    (s.setDt q).egress.downDiscards = s.egress.downDiscards := rfl

@[simp] theorem State.setDt_egress_reducedDropped (s : State) (q : List DtFrame) :
    (s.setDt q).egress.reducedDropped = s.egress.reducedDropped := rfl

@[simp] theorem State.setDt_egress_obDrops (s : State) (q : List DtFrame) :
    (s.setDt q).egress.obDrops = s.egress.obDrops := rfl

@[simp] theorem State.setDt_egress_held (s : State) (q : List DtFrame) :
    (s.setDt q).egress.held = s.egress.held := rfl

@[simp] theorem State.setDt_egress_candidates (s : State) (q : List DtFrame) :
    (s.setDt q).egress.candidates = s.egress.candidates := rfl

@[simp] theorem State.setDt_egress_others (s : State) (q : List DtFrame) :
    (s.setDt q).egress.others = s.egress.others := rfl

@[simp] theorem State.setDt_egress_records (s : State) (q : List DtFrame) :
    (s.setDt q).egress.records = s.egress.records := rfl

@[simp] theorem State.setDt_egress_cChanges (s : State) (q : List DtFrame) :
    (s.setDt q).egress.cChanges = s.egress.cChanges := rfl

@[simp] theorem State.setDt_egress_fLosses (s : State) (q : List DtFrame) :
    (s.setDt q).egress.fLosses = s.egress.fLosses := rfl

@[simp] theorem State.givePart_phase (s : State) (x : ReadoutRecord) (done : Bool) :
    (s.givePart x done).phase = s.phase := rfl

@[simp] theorem State.givePart_straps (s : State) (x : ReadoutRecord) (done : Bool) :
    (s.givePart x done).straps = s.straps := rfl

@[simp] theorem State.givePart_timebase (s : State) (x : ReadoutRecord) (done : Bool) :
    (s.givePart x done).timebase = s.timebase := rfl

@[simp] theorem State.givePart_fPort (s : State) (x : ReadoutRecord) (done : Bool) :
    (s.givePart x done).fPort = s.fPort := rfl

@[simp] theorem State.givePart_cPort (s : State) (x : ReadoutRecord) (done : Bool) :
    (s.givePart x done).cPort = s.cPort := rfl

@[simp] theorem State.givePart_classifier (s : State) (x : ReadoutRecord) (done : Bool) :
    (s.givePart x done).classifier = s.classifier := rfl

@[simp] theorem State.givePart_slots (s : State) (x : ReadoutRecord) (done : Bool) :
    (s.givePart x done).slots = s.slots := rfl

@[simp] theorem State.givePart_rules (s : State) (x : ReadoutRecord) (done : Bool) :
    (s.givePart x done).rules = s.rules := rfl

@[simp] theorem State.givePart_memory (s : State) (x : ReadoutRecord) (done : Bool) :
    (s.givePart x done).memory = s.memory := rfl

@[simp] theorem State.givePart_readout (s : State) (x : ReadoutRecord) (done : Bool) :
    (s.givePart x done).readout = s.readout := rfl

@[simp] theorem State.givePart_events (s : State) (x : ReadoutRecord) (done : Bool) :
    (s.givePart x done).events = s.events := rfl

@[simp] theorem State.givePart_egress (s : State) (x : ReadoutRecord) (done : Bool) :
    (s.givePart x done).egress = s.egress := rfl

@[simp] theorem State.givePart_management (s : State) (x : ReadoutRecord) (done : Bool) :
    (s.givePart x done).management = s.management := rfl

@[simp] theorem State.givePart_pending (s : State) (x : ReadoutRecord) (done : Bool) :
    (s.givePart x done).pending = s.pending := rfl

@[simp] theorem State.givePart_choices (s : State) (x : ReadoutRecord) (done : Bool) :
    (s.givePart x done).choices = s.choices := rfl

@[simp] theorem State.countCompleted_phase (s : State) :
    (s.countCompleted).phase = s.phase := rfl

@[simp] theorem State.countCompleted_straps (s : State) :
    (s.countCompleted).straps = s.straps := rfl

@[simp] theorem State.countCompleted_timebase (s : State) :
    (s.countCompleted).timebase = s.timebase := rfl

@[simp] theorem State.countCompleted_fPort (s : State) :
    (s.countCompleted).fPort = s.fPort := rfl

@[simp] theorem State.countCompleted_cPort (s : State) :
    (s.countCompleted).cPort = s.cPort := rfl

@[simp] theorem State.countCompleted_classifier (s : State) :
    (s.countCompleted).classifier = s.classifier := rfl

@[simp] theorem State.countCompleted_slots (s : State) :
    (s.countCompleted).slots = s.slots := rfl

@[simp] theorem State.countCompleted_rules (s : State) :
    (s.countCompleted).rules = s.rules := rfl

@[simp] theorem State.countCompleted_rings (s : State) :
    (s.countCompleted).rings = s.rings := rfl

@[simp] theorem State.countCompleted_memory (s : State) :
    (s.countCompleted).memory = s.memory := rfl

@[simp] theorem State.countCompleted_events (s : State) :
    (s.countCompleted).events = s.events := rfl

@[simp] theorem State.countCompleted_egress (s : State) :
    (s.countCompleted).egress = s.egress := rfl

@[simp] theorem State.countCompleted_management (s : State) :
    (s.countCompleted).management = s.management := rfl

@[simp] theorem State.countCompleted_pending (s : State) :
    (s.countCompleted).pending = s.pending := rfl

@[simp] theorem State.countCompleted_choices (s : State) :
    (s.countCompleted).choices = s.choices := rfl

@[simp] theorem State.countCompleted_readout_engine (s : State) :
    (s.countCompleted).readout.engine = s.readout.engine := rfl

@[simp] theorem State.countCompleted_readout_nextId (s : State) :
    (s.countCompleted).readout.nextId = s.readout.nextId := rfl

@[simp] theorem State.countCompleted_readout_completed (s : State) :
    (s.countCompleted).readout.completed = bump32 s.readout.completed := rfl

@[simp] theorem State.countCompleted_readout_aborted (s : State) :
    (s.countCompleted).readout.aborted = s.readout.aborted := rfl

@[simp] theorem State.countAborted_phase (s : State) :
    (s.countAborted).phase = s.phase := rfl

@[simp] theorem State.countAborted_straps (s : State) :
    (s.countAborted).straps = s.straps := rfl

@[simp] theorem State.countAborted_timebase (s : State) :
    (s.countAborted).timebase = s.timebase := rfl

@[simp] theorem State.countAborted_fPort (s : State) :
    (s.countAborted).fPort = s.fPort := rfl

@[simp] theorem State.countAborted_cPort (s : State) :
    (s.countAborted).cPort = s.cPort := rfl

@[simp] theorem State.countAborted_classifier (s : State) :
    (s.countAborted).classifier = s.classifier := rfl

@[simp] theorem State.countAborted_slots (s : State) :
    (s.countAborted).slots = s.slots := rfl

@[simp] theorem State.countAborted_rules (s : State) :
    (s.countAborted).rules = s.rules := rfl

@[simp] theorem State.countAborted_rings (s : State) :
    (s.countAborted).rings = s.rings := rfl

@[simp] theorem State.countAborted_memory (s : State) :
    (s.countAborted).memory = s.memory := rfl

@[simp] theorem State.countAborted_events (s : State) :
    (s.countAborted).events = s.events := rfl

@[simp] theorem State.countAborted_egress (s : State) :
    (s.countAborted).egress = s.egress := rfl

@[simp] theorem State.countAborted_management (s : State) :
    (s.countAborted).management = s.management := rfl

@[simp] theorem State.countAborted_pending (s : State) :
    (s.countAborted).pending = s.pending := rfl

@[simp] theorem State.countAborted_choices (s : State) :
    (s.countAborted).choices = s.choices := rfl

@[simp] theorem State.countAborted_readout_engine (s : State) :
    (s.countAborted).readout.engine = s.readout.engine := rfl

@[simp] theorem State.countAborted_readout_nextId (s : State) :
    (s.countAborted).readout.nextId = s.readout.nextId := rfl

@[simp] theorem State.countAborted_readout_completed (s : State) :
    (s.countAborted).readout.completed = s.readout.completed := rfl

@[simp] theorem State.countAborted_readout_aborted (s : State) :
    (s.countAborted).readout.aborted = bump32 s.readout.aborted := rfl

@[simp] theorem State.sendC_phase (s : State) (bytes : List Byte) :
    (s.sendC bytes).phase = s.phase := rfl

@[simp] theorem State.sendC_straps (s : State) (bytes : List Byte) :
    (s.sendC bytes).straps = s.straps := rfl

@[simp] theorem State.sendC_timebase (s : State) (bytes : List Byte) :
    (s.sendC bytes).timebase = s.timebase := rfl

@[simp] theorem State.sendC_fPort (s : State) (bytes : List Byte) :
    (s.sendC bytes).fPort = s.fPort := rfl

@[simp] theorem State.sendC_classifier (s : State) (bytes : List Byte) :
    (s.sendC bytes).classifier = s.classifier := rfl

@[simp] theorem State.sendC_slots (s : State) (bytes : List Byte) :
    (s.sendC bytes).slots = s.slots := rfl

@[simp] theorem State.sendC_rules (s : State) (bytes : List Byte) :
    (s.sendC bytes).rules = s.rules := rfl

@[simp] theorem State.sendC_rings (s : State) (bytes : List Byte) :
    (s.sendC bytes).rings = s.rings := rfl

@[simp] theorem State.sendC_memory (s : State) (bytes : List Byte) :
    (s.sendC bytes).memory = s.memory := rfl

@[simp] theorem State.sendC_readout (s : State) (bytes : List Byte) :
    (s.sendC bytes).readout = s.readout := rfl

@[simp] theorem State.sendC_events (s : State) (bytes : List Byte) :
    (s.sendC bytes).events = s.events := rfl

@[simp] theorem State.sendC_egress (s : State) (bytes : List Byte) :
    (s.sendC bytes).egress = s.egress := rfl

@[simp] theorem State.sendC_management (s : State) (bytes : List Byte) :
    (s.sendC bytes).management = s.management := rfl

@[simp] theorem State.sendC_pending (s : State) (bytes : List Byte) :
    (s.sendC bytes).pending = s.pending := rfl

@[simp] theorem State.sendC_choices (s : State) (bytes : List Byte) :
    (s.sendC bytes).choices = s.choices := rfl

@[simp] theorem State.sendC_cPort (s : State) (bytes : List Byte) :
    (s.sendC bytes).cPort = s.cPort.beginFrame bytes := rfl

/-! ### The classifier and the management unit -/

@[simp] theorem State.setInbox_phase (s : State) (items : List ClassifierItem) :
    (s.setInbox items).phase = s.phase := rfl

@[simp] theorem State.setInbox_straps (s : State) (items : List ClassifierItem) :
    (s.setInbox items).straps = s.straps := rfl

@[simp] theorem State.setInbox_timebase (s : State) (items : List ClassifierItem) :
    (s.setInbox items).timebase = s.timebase := rfl

@[simp] theorem State.setInbox_fPort (s : State) (items : List ClassifierItem) :
    (s.setInbox items).fPort = s.fPort := rfl

@[simp] theorem State.setInbox_cPort (s : State) (items : List ClassifierItem) :
    (s.setInbox items).cPort = s.cPort := rfl

@[simp] theorem State.setInbox_slots (s : State) (items : List ClassifierItem) :
    (s.setInbox items).slots = s.slots := rfl

@[simp] theorem State.setInbox_rules (s : State) (items : List ClassifierItem) :
    (s.setInbox items).rules = s.rules := rfl

@[simp] theorem State.setInbox_rings (s : State) (items : List ClassifierItem) :
    (s.setInbox items).rings = s.rings := rfl

@[simp] theorem State.setInbox_memory (s : State) (items : List ClassifierItem) :
    (s.setInbox items).memory = s.memory := rfl

@[simp] theorem State.setInbox_readout (s : State) (items : List ClassifierItem) :
    (s.setInbox items).readout = s.readout := rfl

@[simp] theorem State.setInbox_events (s : State) (items : List ClassifierItem) :
    (s.setInbox items).events = s.events := rfl

@[simp] theorem State.setInbox_egress (s : State) (items : List ClassifierItem) :
    (s.setInbox items).egress = s.egress := rfl

@[simp] theorem State.setInbox_management (s : State) (items : List ClassifierItem) :
    (s.setInbox items).management = s.management := rfl

@[simp] theorem State.setInbox_pending (s : State) (items : List ClassifierItem) :
    (s.setInbox items).pending = s.pending := rfl

@[simp] theorem State.setInbox_choices (s : State) (items : List ClassifierItem) :
    (s.setInbox items).choices = s.choices := rfl

@[simp] theorem State.setInbox_classifier_nodes (s : State) (items : List ClassifierItem) :
    (s.setInbox items).classifier.nodes = s.classifier.nodes := rfl

@[simp] theorem State.setInbox_classifier_channels (s : State) (items : List ClassifierItem) :
    (s.setInbox items).classifier.channels = s.classifier.channels := rfl

@[simp] theorem State.setInbox_classifier_staleFrames (s : State) (items : List ClassifierItem) :
    (s.setInbox items).classifier.staleFrames = s.classifier.staleFrames := rfl

@[simp] theorem State.setInbox_classifier_inbox (s : State) (items : List ClassifierItem) :
    (s.setInbox items).classifier.inbox = items := rfl

@[simp] theorem State.finishRequest_phase (s : State) :
    (s.finishRequest).phase = s.phase := rfl

@[simp] theorem State.finishRequest_straps (s : State) :
    (s.finishRequest).straps = s.straps := rfl

@[simp] theorem State.finishRequest_timebase (s : State) :
    (s.finishRequest).timebase = s.timebase := rfl

@[simp] theorem State.finishRequest_fPort (s : State) :
    (s.finishRequest).fPort = s.fPort := rfl

@[simp] theorem State.finishRequest_cPort (s : State) :
    (s.finishRequest).cPort = s.cPort := rfl

@[simp] theorem State.finishRequest_classifier (s : State) :
    (s.finishRequest).classifier = s.classifier := rfl

@[simp] theorem State.finishRequest_slots (s : State) :
    (s.finishRequest).slots = s.slots := rfl

@[simp] theorem State.finishRequest_rules (s : State) :
    (s.finishRequest).rules = s.rules := rfl

@[simp] theorem State.finishRequest_rings (s : State) :
    (s.finishRequest).rings = s.rings := rfl

@[simp] theorem State.finishRequest_memory (s : State) :
    (s.finishRequest).memory = s.memory := rfl

@[simp] theorem State.finishRequest_readout (s : State) :
    (s.finishRequest).readout = s.readout := rfl

@[simp] theorem State.finishRequest_events (s : State) :
    (s.finishRequest).events = s.events := rfl

@[simp] theorem State.finishRequest_egress (s : State) :
    (s.finishRequest).egress = s.egress := rfl

@[simp] theorem State.finishRequest_pending (s : State) :
    (s.finishRequest).pending = s.pending := rfl

@[simp] theorem State.finishRequest_choices (s : State) :
    (s.finishRequest).choices = s.choices := rfl

@[simp] theorem State.finishRequest_management_cache (s : State) :
    (s.finishRequest).management.cache = s.management.cache := rfl

@[simp] theorem State.finishRequest_management_global (s : State) :
    (s.finishRequest).management.global = s.management.global := rfl

@[simp] theorem State.finishRequest_management_current (s : State) :
    (s.finishRequest).management.current = s.management.waiting.head? := rfl

@[simp] theorem State.finishRequest_management_waiting (s : State) :
    (s.finishRequest).management.waiting = s.management.waiting.tail := rfl

@[simp] theorem State.setGlobal_phase (s : State) (g : Global) :
    (s.setGlobal g).phase = s.phase := rfl

@[simp] theorem State.setGlobal_straps (s : State) (g : Global) :
    (s.setGlobal g).straps = s.straps := rfl

@[simp] theorem State.setGlobal_timebase (s : State) (g : Global) :
    (s.setGlobal g).timebase = s.timebase := rfl

@[simp] theorem State.setGlobal_fPort (s : State) (g : Global) :
    (s.setGlobal g).fPort = s.fPort := rfl

@[simp] theorem State.setGlobal_cPort (s : State) (g : Global) :
    (s.setGlobal g).cPort = s.cPort := rfl

@[simp] theorem State.setGlobal_classifier (s : State) (g : Global) :
    (s.setGlobal g).classifier = s.classifier := rfl

@[simp] theorem State.setGlobal_slots (s : State) (g : Global) :
    (s.setGlobal g).slots = s.slots := rfl

@[simp] theorem State.setGlobal_rules (s : State) (g : Global) :
    (s.setGlobal g).rules = s.rules := rfl

@[simp] theorem State.setGlobal_rings (s : State) (g : Global) :
    (s.setGlobal g).rings = s.rings := rfl

@[simp] theorem State.setGlobal_memory (s : State) (g : Global) :
    (s.setGlobal g).memory = s.memory := rfl

@[simp] theorem State.setGlobal_readout (s : State) (g : Global) :
    (s.setGlobal g).readout = s.readout := rfl

@[simp] theorem State.setGlobal_events (s : State) (g : Global) :
    (s.setGlobal g).events = s.events := rfl

@[simp] theorem State.setGlobal_egress (s : State) (g : Global) :
    (s.setGlobal g).egress = s.egress := rfl

@[simp] theorem State.setGlobal_pending (s : State) (g : Global) :
    (s.setGlobal g).pending = s.pending := rfl

@[simp] theorem State.setGlobal_choices (s : State) (g : Global) :
    (s.setGlobal g).choices = s.choices := rfl

@[simp] theorem State.setGlobal_management_cache (s : State) (g : Global) :
    (s.setGlobal g).management.cache = s.management.cache := rfl

@[simp] theorem State.setGlobal_management_current (s : State) (g : Global) :
    (s.setGlobal g).management.current = s.management.current := rfl

@[simp] theorem State.setGlobal_management_waiting (s : State) (g : Global) :
    (s.setGlobal g).management.waiting = s.management.waiting := rfl

@[simp] theorem State.setGlobal_management_shares (s : State) (g : Global) :
    (s.setGlobal g).management.shares = s.management.shares := rfl

@[simp] theorem State.setGlobal_management_global (s : State) (g : Global) :
    (s.setGlobal g).management.global = g := rfl

/-! ### Shares of a request -/

@[simp] theorem State.noteShare_phase (s : State) (b : Block) :
    (s.noteShare b).phase = s.phase := rfl

@[simp] theorem State.noteShare_straps (s : State) (b : Block) :
    (s.noteShare b).straps = s.straps := rfl

@[simp] theorem State.noteShare_timebase (s : State) (b : Block) :
    (s.noteShare b).timebase = s.timebase := rfl

@[simp] theorem State.noteShare_fPort (s : State) (b : Block) :
    (s.noteShare b).fPort = s.fPort := rfl

@[simp] theorem State.noteShare_cPort (s : State) (b : Block) :
    (s.noteShare b).cPort = s.cPort := rfl

@[simp] theorem State.noteShare_classifier (s : State) (b : Block) :
    (s.noteShare b).classifier = s.classifier := rfl

@[simp] theorem State.noteShare_slots (s : State) (b : Block) :
    (s.noteShare b).slots = s.slots := rfl

@[simp] theorem State.noteShare_rules (s : State) (b : Block) :
    (s.noteShare b).rules = s.rules := rfl

@[simp] theorem State.noteShare_rings (s : State) (b : Block) :
    (s.noteShare b).rings = s.rings := rfl

@[simp] theorem State.noteShare_memory (s : State) (b : Block) :
    (s.noteShare b).memory = s.memory := rfl

@[simp] theorem State.noteShare_readout (s : State) (b : Block) :
    (s.noteShare b).readout = s.readout := rfl

@[simp] theorem State.noteShare_events (s : State) (b : Block) :
    (s.noteShare b).events = s.events := rfl

@[simp] theorem State.noteShare_egress (s : State) (b : Block) :
    (s.noteShare b).egress = s.egress := rfl

@[simp] theorem State.noteShare_choices (s : State) (b : Block) :
    (s.noteShare b).choices = s.choices := rfl

@[simp] theorem State.noteShare_pending (s : State) (b : Block) :
    (s.noteShare b).pending = s.pending := rfl

@[simp] theorem State.noteShare_management_cache (s : State) (b : Block) :
    (s.noteShare b).management.cache = s.management.cache := rfl

@[simp] theorem State.noteShare_management_current (s : State) (b : Block) :
    (s.noteShare b).management.current = s.management.current := rfl

@[simp] theorem State.noteShare_management_waiting (s : State) (b : Block) :
    (s.noteShare b).management.waiting = s.management.waiting := rfl

@[simp] theorem State.noteShare_management_global (s : State) (b : Block) :
    (s.noteShare b).management.global = s.management.global := rfl

@[simp] theorem State.noteShare_taken (s : State) (b : Block) :
    (s.noteShare b).management.shares.taken = s.management.shares.taken ++ [b] := rfl

@[simp] theorem State.noteShare_readings (s : State) (b : Block) :
    (s.noteShare b).management.shares.readings = s.management.shares.readings := rfl

@[simp] theorem State.setReadings_phase (s : State) (x : Readings) :
    (s.setReadings x).phase = s.phase := rfl

@[simp] theorem State.setReadings_straps (s : State) (x : Readings) :
    (s.setReadings x).straps = s.straps := rfl

@[simp] theorem State.setReadings_timebase (s : State) (x : Readings) :
    (s.setReadings x).timebase = s.timebase := rfl

@[simp] theorem State.setReadings_fPort (s : State) (x : Readings) :
    (s.setReadings x).fPort = s.fPort := rfl

@[simp] theorem State.setReadings_cPort (s : State) (x : Readings) :
    (s.setReadings x).cPort = s.cPort := rfl

@[simp] theorem State.setReadings_classifier (s : State) (x : Readings) :
    (s.setReadings x).classifier = s.classifier := rfl

@[simp] theorem State.setReadings_slots (s : State) (x : Readings) :
    (s.setReadings x).slots = s.slots := rfl

@[simp] theorem State.setReadings_rules (s : State) (x : Readings) :
    (s.setReadings x).rules = s.rules := rfl

@[simp] theorem State.setReadings_rings (s : State) (x : Readings) :
    (s.setReadings x).rings = s.rings := rfl

@[simp] theorem State.setReadings_memory (s : State) (x : Readings) :
    (s.setReadings x).memory = s.memory := rfl

@[simp] theorem State.setReadings_readout (s : State) (x : Readings) :
    (s.setReadings x).readout = s.readout := rfl

@[simp] theorem State.setReadings_events (s : State) (x : Readings) :
    (s.setReadings x).events = s.events := rfl

@[simp] theorem State.setReadings_egress (s : State) (x : Readings) :
    (s.setReadings x).egress = s.egress := rfl

@[simp] theorem State.setReadings_choices (s : State) (x : Readings) :
    (s.setReadings x).choices = s.choices := rfl

@[simp] theorem State.setReadings_pending (s : State) (x : Readings) :
    (s.setReadings x).pending = s.pending := rfl

@[simp] theorem State.setReadings_management_cache (s : State) (x : Readings) :
    (s.setReadings x).management.cache = s.management.cache := rfl

@[simp] theorem State.setReadings_management_current (s : State) (x : Readings) :
    (s.setReadings x).management.current = s.management.current := rfl

@[simp] theorem State.setReadings_management_waiting (s : State) (x : Readings) :
    (s.setReadings x).management.waiting = s.management.waiting := rfl

@[simp] theorem State.setReadings_management_global (s : State) (x : Readings) :
    (s.setReadings x).management.global = s.management.global := rfl

@[simp] theorem State.setReadings_taken (s : State) (x : Readings) :
    (s.setReadings x).management.shares.taken = s.management.shares.taken := rfl

@[simp] theorem State.setReadings_readings (s : State) (x : Readings) :
    (s.setReadings x).management.shares.readings = x := rfl

end Sys2Proof.Machine
end

