-- ==== Sys2Proof/Laws/Tables.lean ====
section
/-! SUPPORT. Reading a table after it has been changed, and the port and entry accessors of the state. -/

namespace Sys2Proof

namespace Table

variable {α : Type} {n : Nat}

/-- Reading an entry after one entry has been set: that one, or the old one. -/
theorem get_set (t : Table α n) (i j : Fin n) (x : α) :
    (t.set i x).get j = if i = j then x else t.get j := by
  simp [Table.get, Table.set, List.getElem_set, Fin.ext_iff]

@[simp] theorem get_set_self (t : Table α n) (i : Fin n) (x : α) : (t.set i x).get i = x := by
  simp [get_set]

@[simp] theorem get_set_ne (t : Table α n) {i j : Fin n} (x : α) (h : i ≠ j) :
    (t.set i x).get j = t.get j := by
  simp [get_set, h]

@[simp] theorem get_map (t : Table α n) (f : α → α) (i : Fin n) : (t.map f).get i = f (t.get i) := by
  simp [Table.get, Table.map]

@[simp] theorem get_replicate (x : α) (i : Fin n) : (Table.replicate n x).get i = x := by
  simp [Table.get, Table.replicate]

/-- Two tables with the same entries are the same table. -/
theorem ext_get {t u : Table α n} (h : ∀ i, t.get i = u.get i) : t = u := by
  cases t with
  | mk rt st =>
    cases u with
    | mk ru su =>
      have : rt = ru := by
        apply List.ext_getElem
        · rw [st, su]
        · intro i h₁ h₂
          exact h ⟨i, st ▸ h₁⟩
      subst this
      rfl

@[simp] theorem set_get (t : Table α n) (i : Fin n) : t.set i (t.get i) = t := by
  apply ext_get
  intro j
  rw [get_set]
  split
  · next h => rw [h]
  · rfl

/-- Some entry passes a test exactly when the table says so. -/
theorem any_eq_true (t : Table α n) (p : α → Bool) : t.any p = true ↔ ∃ i, p (t.get i) = true := by
  constructor
  · intro h
    obtain ⟨x, hx, hp⟩ := List.any_eq_true.mp h
    obtain ⟨i, hi, rfl⟩ := List.getElem_of_mem hx
    exact ⟨⟨i, t.size ▸ hi⟩, hp⟩
  · rintro ⟨i, hi⟩
    exact List.any_eq_true.mpr ⟨_, List.getElem_mem _, hi⟩

end Table

namespace Machine

@[simp] theorem State.port_setPort_self (s : State) (p : PortId) (x : Port) :
    (s.setPort p x).port p = x := by
  cases p <;> rfl

theorem State.port_setPort (s : State) (p q : PortId) (x : Port) :
    (s.setPort p x).port q = if p = q then x else s.port q := by
  cases p <;> cases q <;> rfl

@[simp] theorem State.setPort_port (s : State) (p : PortId) : s.setPort p (s.port p) = s := by
  cases p <;> rfl

@[simp] theorem State.channel_setChannel_self (s : State) (c : Fin 64) (x : Channel) :
    (s.setChannel c x).channel c = x := by
  simp [State.channel, State.setChannel]

theorem State.channel_setChannel (s : State) (c d : Fin 64) (x : Channel) :
    (s.setChannel c x).channel d = if c = d then x else s.channel d := by
  simp [State.channel, State.setChannel, Table.get_set]

/-- A slot after an offer: one more item in flight to it where it names the source (R16). -/
theorem State.slots_offer (s : State) (src : Source) (item : StreamItem) (k : Fin 16) :
    (s.offer src item).slots.get k =
      { s.slots.get k with inbox :=
        if (s.slots.get k).names src = true then (s.slots.get k).inbox ++ [item] else (s.slots.get k).inbox } := by
  simp only [State.offer, Table.get_map]
  split <;> rfl

/-- A rule after an offer (R16, R34). -/
theorem State.rules_offer (s : State) (src : Source) (item : StreamItem) (k : Fin 32) :
    (s.offer src item).rules.get k =
      { s.rules.get k with inbox :=
        if (s.rules.get k).names src = true then (s.rules.get k).inbox ++ [item] else (s.rules.get k).inbox } := by
  simp only [State.offer, Table.get_map]
  split <;> rfl

/-- A ring after an offer (R16, R34). -/
theorem State.rings_offer (s : State) (src : Source) (item : StreamItem) (k : Fin 8) :
    (s.offer src item).rings.get k =
      { s.rings.get k with inbox :=
        if (s.rings.get k).names src = true then (s.rings.get k).inbox ++ [item] else (s.rings.get k).inbox } := by
  simp only [State.offer, Table.get_map]
  split <;> rfl

/-- A slot after what some sources offered has passed by (R25): nothing is in flight to it where it is not
enabled and names one of them. -/
theorem State.slots_passBy (s : State) (p : Source → Bool) (k : Fin 16) :
    (s.passBy p).slots.get k =
      { s.slots.get k with inbox :=
        if (s.slots.get k).enabled = false ∧ p (.channel (s.slots.get k).channel) = true then []
        else (s.slots.get k).inbox } := by
  simp only [State.passBy, Table.get_map]
  split <;> rfl

/-- A rule after what some sources offered has passed by (R44). -/
theorem State.rules_passBy (s : State) (p : Source → Bool) (k : Fin 32) :
    (s.passBy p).rules.get k =
      { s.rules.get k with inbox :=
        if (s.rules.get k).enabled = false ∧ (s.rules.get k).source.any p = true then []
        else (s.rules.get k).inbox } := by
  simp only [State.passBy, Table.get_map]
  split <;> rfl

/-- A ring after what some sources offered has passed by (R69). -/
theorem State.rings_passBy (s : State) (p : Source → Bool) (k : Fin 8) :
    (s.passBy p).rings.get k =
      { s.rings.get k with inbox :=
        if (s.rings.get k).enabled = false ∧ (s.rings.get k).source.any p = true then []
        else (s.rings.get k).inbox } := by
  simp only [State.passBy, Table.get_map]
  split <;> rfl

/-- What taking the first item that passes a test leaves: the items around it (how a block takes the
oldest item of one sender). -/
theorem takeFirst_eq_some {α : Type} {p : α → Bool} {l : List α} {x : α} {rest : List α}
    (h : takeFirst p l = some (x, rest)) :
    ∃ before after, l = before ++ x :: after ∧ rest = before ++ after ∧ p x = true
      ∧ ∀ y ∈ before, p y = false := by
  induction l generalizing rest with
  | nil => simp [takeFirst] at h
  | cons a l ih =>
    simp only [takeFirst] at h
    split at h
    · next ha =>
      cases h
      exact ⟨[], l, rfl, rfl, ha, by simp⟩
    · next ha =>
      simp only [Option.map_eq_some_iff] at h
      obtain ⟨⟨b, ys⟩, hb, heq⟩ := h
      simp only [Prod.mk.injEq] at heq
      obtain ⟨rfl, rfl⟩ := heq
      obtain ⟨before, after, rfl, rfl, hp, hn⟩ := ih hb
      refine ⟨a :: before, after, rfl, rfl, hp, ?_⟩
      intro y hy
      rcases List.mem_cons.mp hy with rfl | hy
      · simpa using ha
      · exact hn y hy

/-- Taking the first item that passes a test, where it stands behind items that do not. -/
theorem takeFirst_append {α : Type} {p : α → Bool} (before after : List α) (x : α)
    (hx : p x = true) (hn : ∀ y ∈ before, p y = false) :
    takeFirst p (before ++ x :: after) = some (x, before ++ after) := by
  induction before with
  | nil => simp [takeFirst, hx]
  | cons a before ih =>
    have ha : p a = false := hn a (by simp)
    have := ih fun y hy => hn y (by simp [hy])
    simp [takeFirst, ha, this]

end Machine

end Sys2Proof
end

