-- ==== Sys2Proof/Laws/Access.lean ====
section
/-! SUPPORT. What the shared operations of table access can do (section 7.4). -/

namespace Sys2Proof.Machine

/-- An operation at the entry an index names changes the state only where the entry exists. -/
theorem atIndex_cases {n : Nat} (i : Option (Fin n)) (s : State) (op : Fin n → Status × State) :
    (∃ k, i = some k ∧ atIndex i s op = op k) ∨ (i = none ∧ atIndex i s op = (.badValue, s)) := by
  cases i with
  | some k => exact .inl ⟨k, rfl, rfl⟩
  | none => exact .inr ⟨rfl, rfl⟩

/-- Everything a checked write can do (R134 checks 4 to 7, R135): nothing, with a refusal, or the whole
write. -/
theorem writeChecked_cases {α : Type} (t : TableId) (enabled : Bool) (mask : Nat) (new : Option α)
    (fits : α → Bool) (s : State) (put : α → State) :
    (∃ x, maskGood t mask = true ∧ (enabled = false ∨ maskBound t mask = false) ∧ new = some x
        ∧ fits x = true ∧ writeChecked t enabled mask new fits s put = (.ok, put x))
      ∨ ∃ status, (status = .badValue ∨ status = .liveField)
        ∧ writeChecked t enabled mask new fits s put = (status, s) := by
  simp only [writeChecked]
  split
  · exact .inr ⟨_, .inl rfl, rfl⟩
  · next hm =>
    split
    · exact .inr ⟨_, .inr rfl, rfl⟩
    · next hb =>
      cases new with
      | none => exact .inr ⟨_, .inl rfl, rfl⟩
      | some x =>
        by_cases hf : fits x = true
        · refine .inl ⟨x, by simpa using hm, ?_, rfl, hf, if_pos hf⟩
          cases enabled <;> simp_all
        · exact .inr ⟨_, .inl rfl, if_neg hf⟩

/-- A field after a write: the new value where the mask names it, else the old one. -/
theorem field_eq_some {α : Type} {mask k : Nat} {old x : α} {new : Option α}
    (h : field mask k old new = some x) :
    (mask.testBit k = true ∧ new = some x) ∨ (mask.testBit k = false ∧ x = old) := by
  simp only [field] at h
  split at h
  · next hk => exact .inl ⟨hk, h⟩
  · next hk => cases h; exact .inr ⟨by simpa using hk, rfl⟩

/-- A number that passes a range check is the number, and lies in the range. -/
theorem inRange_eq_some {lo hi n m : Nat} (h : inRange lo hi n = some m) : m = n ∧ lo ≤ n ∧ n ≤ hi := by
  simp only [inRange] at h
  split at h
  · next hr => cases h; exact ⟨rfl, hr⟩
  · cases h

/-- An index that passes is the number, below the bound. -/
theorem indexBelow_eq_some {n m : Nat} {k : Fin n} (h : indexBelow n m = some k) : k.val = m := by
  simp only [indexBelow] at h
  split at h
  · cases h; rfl
  · cases h

/-- A ring after a write keeps the relations of R67 and all its read-only fields. -/
theorem Ring.write_eq_some {r y : Ring} {mask : Nat} {v : List Byte} (h : r.write mask v = some y) :
    y.relationsGood = true
      ∧ y = { r with base := y.base, length := y.length, mode := y.mode,
                     sourceKind := y.sourceKind, sourceIndex := y.sourceIndex,
                     overflow := y.overflow, postCount := y.postCount, notify := y.notify } := by
  simp only [Ring.write, Option.bind_eq_some_iff] at h
  obtain ⟨_, _, _, _, _, _, _, _, _, _, _, _, _, _, _, _, h⟩ := h
  split at h
  · next hg => cases h; exact ⟨hg, rfl⟩
  · cases h

/-- A rule after a write keeps all its read-only fields. -/
theorem Rule.write_eq_some {r y : Rule} {mask : Nat} {v : List Byte} (h : r.write mask v = some y) :
    y.enabled = r.enabled ∧ y.state = r.state ∧ y.runCount = r.runCount ∧ y.previous = r.previous
      ∧ y.asserts = r.asserts ∧ y.lastAssert = r.lastAssert ∧ y.inbox = r.inbox := by
  simp only [Rule.write, Option.bind_eq_some_iff] at h
  obtain ⟨_, _, _, _, _, _, _, _, _, _, _, _, _, _, _, _, _, _, _, _, _, _, _, _, h⟩ := h
  cases h
  exact ⟨rfl, rfl, rfl, rfl, rfl, rfl, rfl⟩

/-- A slot after a write keeps all its read-only fields. -/
theorem Slot.write_eq_some {x y : Slot} {mask : Nat} {v : List Byte} (h : x.write mask v = some y) :
    y = { x with channel := y.channel, mode := y.mode, exponent := y.exponent, trigger := y.trigger,
                 toEgress := y.toEgress, notifyBroken := y.notifyBroken } := by
  simp only [Slot.write, Option.bind_eq_some_iff] at h
  obtain ⟨_, _, _, _, _, _, _, _, _, _, _, _, h⟩ := h
  cases h
  rfl

/-- A channel after a write keeps all its read-only fields. -/
theorem Channel.write_eq_some {c y : Channel} {mask : Nat} {v : List Byte}
    (h : c.write mask v = some y) :
    y = { c with node := y.node, input := y.input, format := y.format, policy := y.policy,
                 divisor := y.divisor } := by
  simp only [Channel.write, Option.bind_eq_some_iff] at h
  obtain ⟨_, _, _, _, _, _, _, _, _, _, h⟩ := h
  cases h
  rfl

/-- What a write leaves in flight to a slot: everything, or nothing where it names another channel. -/
theorem Slot.rewritten_eq (x y : Slot) :
    x.rewritten y = { y with inbox := if y.channel = x.channel then y.inbox else [] } := by
  unfold Slot.rewritten; split <;> rfl

/-- What a write leaves in flight to a rule: everything, or nothing where it names another source. -/
theorem Rule.rewritten_eq (x y : Rule) :
    x.rewritten y = { y with inbox :=
      if y.sourceKind = x.sourceKind ∧ y.sourceIndex = x.sourceIndex then y.inbox else [] } := by
  unfold Rule.rewritten; split <;> rfl

/-- What a write leaves in flight to a ring: everything, or nothing where it names another source. -/
theorem Ring.rewritten_eq (x y : Ring) :
    x.rewritten y = { y with inbox :=
      if y.sourceKind = x.sourceKind ∧ y.sourceIndex = x.sourceIndex then y.inbox else [] } := by
  unfold Ring.rewritten; split <;> rfl

/-- What passes by at the ENABLE of a source (R10, R24; assumption 9). -/
theorem State.passBy_offersGone (s : State) (src : Source) :
    OffersGone s (s.passBy fun x => decide (x = src)) src := by
  refine ⟨fun k => ?_, fun k => ?_, fun k => ?_, rfl⟩
  · simp only [State.slots_passBy, decide_eq_true_eq, eq_comm (a := src)]
  · simp only [State.rules_passBy, Option.any_eq_true, decide_eq_true_eq, exists_eq_right]
  · simp only [State.rings_passBy, Option.any_eq_true, decide_eq_true_eq, exists_eq_right]

/-- What a slot's event gives its consumers (R34). -/
theorem State.offerNext_slotGave (s : State) (k : Fin 16) (item : StreamItem) :
    SlotGave s (s.offerNext k item) k item := by
  refine ⟨fun j => ?_, fun j => ?_⟩
  · simp only [State.offerNext, State.rules_offer, State.rules_passBy, afterSlot, Rule.names,
      Option.any_eq_true, decide_eq_true_eq, exists_eq_right]
    by_cases h : (s.rules.get j).source = some (.slot k) <;>
      cases he : (s.rules.get j).enabled <;> simp [h] <;> exact h
  · simp only [State.offerNext, State.rings_offer, State.rings_passBy, afterSlot, Ring.names,
      Option.any_eq_true, decide_eq_true_eq, exists_eq_right]
    by_cases h : (s.rings.get j).source = some (.slot k) <;>
      cases he : (s.rings.get j).enabled <;> simp [h] <;> exact h

end Sys2Proof.Machine
end

