-- ==== Sys2Proof/Laws/Classifier.lean ====
section
/-! SUPPORT. What the shared operations of the classifier can do (chapter 1): they reach the channels and
what is in flight to their consumers, and nothing else. -/

namespace Sys2Proof.Machine

/-- Two slots, rules and rings that differ only in what is in flight to them, and channels that differ
only in their read-only fields. -/
structure OnlyOffered (s t : State) : Prop where
  slots : ∀ k, t.slots.get k = { s.slots.get k with inbox := (t.slots.get k).inbox }
  rules : ∀ k, t.rules.get k = { s.rules.get k with inbox := (t.rules.get k).inbox }
  rings : ∀ k, t.rings.get k = { s.rings.get k with inbox := (t.rings.get k).inbox }
  channels : ∀ c, t.channel c = { s.channel c with
    sampleIndex := (t.channel c).sampleIndex
    lastValue := (t.channel c).lastValue
    gapMarks := (t.channel c).gapMarks }
  rest : t = { s with
    classifier := { s.classifier with channels := t.classifier.channels }
    slots := t.slots
    rules := t.rules
    rings := t.rings }

theorem OnlyOffered.refl (s : State) : OnlyOffered s s :=
  ⟨fun _ => rfl, fun _ => rfl, fun _ => rfl, fun _ => rfl, rfl⟩

theorem OnlyOffered.trans {s t u : State} (h : OnlyOffered s t) (k : OnlyOffered t u) :
    OnlyOffered s u := by
  refine ⟨fun j => ?_, fun j => ?_, fun j => ?_, fun c => ?_, ?_⟩
  · rw [k.slots j, h.slots j]
  · rw [k.rules j, h.rules j]
  · rw [k.rings j, h.rings j]
  · rw [k.channels c, h.channels c]
  · rw [k.rest, h.rest]

/-- An offer reaches only what is in flight to the consumers (R16, R20, R34). -/
theorem State.offer_onlyOffered (s : State) (src : Source) (item : StreamItem) :
    OnlyOffered s (s.offer src item) := by
  refine ⟨fun k => ?_, fun k => ?_, fun k => ?_, fun _ => rfl, rfl⟩
  · rw [State.slots_offer]
  · rw [State.rules_offer]
  · rw [State.rings_offer]

/-- What has passed by reaches only what was in flight to the consumers (R25, R44, R69). -/
theorem State.passBy_onlyOffered (s : State) (p : Source → Bool) : OnlyOffered s (s.passBy p) := by
  refine ⟨fun k => ?_, fun k => ?_, fun k => ?_, fun _ => rfl, rfl⟩
  · rw [State.slots_passBy]
  · rw [State.rules_passBy]
  · rw [State.rings_passBy]

/-- A slot's item for its consumers, and what passes by with it (R34). -/
theorem State.offerNext_onlyOffered (s : State) (k : Fin 16) (item : StreamItem) :
    OnlyOffered s (s.offerNext k item) :=
  (State.passBy_onlyOffered s _).trans (State.offer_onlyOffered _ _ _)

/-- A slot's item goes to no slot (R34). -/
@[simp] theorem State.slots_offerNext (s : State) (k : Fin 16) (item : StreamItem) :
    (s.offerNext k item).slots = s.slots := by
  apply Table.ext_get
  intro j
  simp [State.offerNext, State.slots_offer, State.slots_passBy, Slot.names]

/-- A channel whose read-only fields alone are replaced. -/
theorem State.setChannel_onlyOffered (s : State) (c : Fin 64) (x : Channel)
    (h : x = { s.channel c with
      sampleIndex := x.sampleIndex, lastValue := x.lastValue, gapMarks := x.gapMarks }) :
    OnlyOffered s (s.setChannel c x) := by
  refine ⟨fun _ => rfl, fun _ => rfl, fun _ => rfl, fun d => ?_, rfl⟩
  rw [State.channel_setChannel]
  split
  · next hd => subst hd; exact h
  · rfl

/-- A gap mark placed in a channel's stream (R20, R22). -/
theorem State.placeMark_onlyOffered (s : State) (c : Fin 64) : OnlyOffered s (s.placeMark c) :=
  (State.setChannel_onlyOffered s c _ rfl).trans (State.offer_onlyOffered _ _ _)

/-- Gap marks in every enabled channel that passes a test (R7, R21). -/
theorem State.placeMarks_onlyOffered (s : State) (p : Channel → Bool) :
    OnlyOffered s (s.placeMarks p) := by
  have key : ∀ (cs : List (Fin 64)) (u : State), OnlyOffered s u →
      OnlyOffered s (cs.foldl
        (fun s c => if (s.channel c).enabled && p (s.channel c) then s.placeMark c else s) u) := by
    intro cs
    induction cs with
    | nil => intro u h; exact h
    | cons c cs ih =>
      intro u h
      refine ih _ ?_
      dsimp only
      split
      · exact h.trans (State.placeMark_onlyOffered u c)
      · exact h
  exact key _ s (OnlyOffered.refl s)

/-- A sample taken by a channel (R14). -/
theorem State.takeSample_onlyOffered (s : State) (c : Fin 64) (code : Nat) :
    OnlyOffered s (s.takeSample c code) :=
  (State.setChannel_onlyOffered s c _ rfl).trans (State.offer_onlyOffered _ _ _)

/-- The entries of a frame (R13, R14, R17). -/
theorem State.takeEntries_onlyOffered (s : State) (node : Nat) (es : List SampleEntry) :
    OnlyOffered s (s.takeEntries node es).1 := by
  induction es generalizing s with
  | nil => exact OnlyOffered.refl s
  | cons e es ih =>
    have h : OnlyOffered s (s.takeEntry node e).1 := by
      simp only [State.takeEntry]
      split
      · exact State.takeSample_onlyOffered s _ _
      · exact OnlyOffered.refl s
    exact h.trans (ih _)

/-- Entries match the same channels whatever has been offered before (R13). -/
theorem OnlyOffered.matchChannel {s t : State} (h : OnlyOffered s t) (node input : Nat) :
    t.matchChannel node input = s.matchChannel node input := by
  have hc : ∀ c, (t.channel c).enabled = (s.channel c).enabled
      ∧ (t.channel c).node = (s.channel c).node ∧ (t.channel c).input = (s.channel c).input :=
    fun c => by rw [h.channels c]; exact ⟨rfl, rfl, rfl⟩
  simp only [State.matchChannel, hc]

end Sys2Proof.Machine
end

