-- ==== Sys2Proof/Laws/Egress.lean ====
section
/-! SUPPORT. What the shared operations of the readout engine and the egress scheduler can do (chapters 5
and 8). -/

namespace Sys2Proof.Machine

/-! ### The readout engine -/

/-- Everything one production can do (R95): nothing, or one frame at the tail of DT. -/
theorem State.produceOne_cases {s t : State} (h : s.produceOne = some t) :
    t = s ∨ ∃ x, s.readout.engine = .sending x ∧ s.egress.held = false
      ∧ s.egress.dt.length < Config.dtCapacity ∧ x.lastQueued = false
      ∧ x.framesQueued < Config.readoutPlaces
      ∧ t = { s with
          egress := { s.egress with dt := s.egress.dt ++ [.readout (s.nextFrame x)] }
          readout := { s.readout with engine := .sending x.placed } } := by
  simp only [State.produceOne] at h
  split at h
  · next x hx =>
    split at h
    · next hc =>
      split at h
      · cases h
        simp only [Egress.dtFree, ReadoutRecord.wantsFrame, Bool.and_eq_true, Bool.not_eq_true',
          decide_eq_true_eq] at hc
        exact .inr ⟨x, hx, hc.1.1, hc.1.2, hc.2.1, hc.2.2, rfl⟩
      · cases h
    · cases h; exact .inl rfl
  · cases h; exact .inl rfl

/-- What holds of a state and is kept by one production is kept by some. -/
theorem State.produceUpTo_keeps {P : State → Prop} {n : Nat} {s t : State}
    (step : ∀ u v : State, P u → u.produceOne = some v → P v) (hs : P s)
    (h : s.produceUpTo n = some t) : P t := by
  induction n generalizing s with
  | zero => cases h; exact hs
  | succ n ih =>
    simp only [State.produceUpTo, Option.bind_eq_some_iff] at h
    obtain ⟨u, hu, h⟩ := h
    exact ih (step s u hs hu) h

/-- Everything placing a terminating frame can do (R102). -/
theorem State.placeTerminator_cases (s : State) :
    s.placeTerminator = s ∨ ∃ x, s.readout.engine = .terminating x ∧ x.pending = true
      ∧ s.egress.held = false ∧ s.egress.dt.length < Config.dtCapacity
      ∧ s.placeTerminator = { s with
          egress := { s.egress with dt := s.egress.dt ++ [.readout x.frame] }
          readout := { s.readout with engine := .terminating { x with pending := false } } } := by
  simp only [State.placeTerminator]
  split
  · next x hx =>
    split
    · next hc =>
      simp only [Egress.dtFree, Bool.and_eq_true, Bool.not_eq_true', decide_eq_true_eq] at hc
      exact .inr ⟨x, hx, hc.1, hc.2.1, hc.2.2, rfl⟩
    · exact .inl rfl
  · exact .inl rfl

/-- What holds of a state and is kept by placing a terminating frame and by a production is kept when the
engine examines its conditions. -/
theorem State.examineEngine_keeps {P : State → Prop} {s t : State}
    (place : ∀ u : State, P u → P u.placeTerminator)
    (step : ∀ u v : State, P u → u.produceOne = some v → P v) (hs : P s)
    (h : s.examineEngine = some t) : P t :=
  State.produceUpTo_keeps step (place s hs) h

/-- While DT takes nothing, the engine's examination changes nothing (R95, R160). -/
theorem State.examineEngine_held {s : State} (h : s.egress.held = true) : s.examineEngine = some s := by
  have hf : s.egress.dtFree = false := by simp [Egress.dtFree, h]
  have hp : s.placeTerminator = s := by
    rcases State.placeTerminator_cases s with hp | ⟨x, _, _, hh, _⟩
    · exact hp
    · simp [h] at hh
  have ho : s.produceOne = some s := by
    simp only [State.produceOne]
    split <;> simp [hf]
  have hn : ∀ n, s.produceUpTo n = some s := by
    intro n
    induction n with
    | zero => rfl
    | succ n ih => simp [State.produceUpTo, ho, ih]
  simp only [State.examineEngine, hp, hn]

/-- The words of the next frame of a readout that lies in capture memory lie there too (R96, R97). -/
theorem offsetsInMemory_frameOffsets {s : State} {x : ReadoutRecord} (h : ReadoutInMemory s x) :
    offsetsInMemory ((s.rings.get x.ring).frameOffsets x) = true := by
  simp only [offsetsInMemory, Ring.frameOffsets, List.all_eq_true, List.mem_map, List.mem_range,
    decide_eq_true_eq]
  rintro o ⟨j, hj, rfl⟩
  simp only [ReadoutRecord.frameWords, Config.readoutFrameWords, Ring.readoutOffset] at *
  unfold ReadoutInMemory at h
  split at h
  · next hp =>
    rw [hp]
    have := Nat.mod_lt (x.start + (x.nextOffset + j)) h.1
    simp only
    omega
  · cases hq : x.part <;> simp_all <;> omega

/-- Everything enough productions in a row do in SENDING (R95). -/
theorem State.produceUpTo_places (n : Nat) : ∀ (s : State) (x : ReadoutRecord),
    s.readout.engine = .sending x → s.egress.held = false → ReadoutInMemory s x →
    min (min (8 - x.framesQueued) (16 - s.egress.dt.length)) (framesToPlace x) ≤ n →
    ∃ frames y, PlacesFrames s x y (16 - s.egress.dt.length) frames
      ∧ s.produceUpTo n = some { s with
          egress := { s.egress with dt := s.egress.dt ++ frames.map .readout }
          readout := { s.readout with engine := .sending y } } := by
  induction n with
  | zero =>
    intro s x he hh hm hn
    refine ⟨[], x, ⟨by simp; omega, by simp [framesRun], by simp, by simp⟩, ?_⟩
    simp only [State.produceUpTo, List.map_nil, List.append_nil]
    rw [← he]
  | succ n ih =>
    intro s x he hh hm hn
    by_cases hc : s.egress.dt.length < 16 ∧ x.lastQueued = false ∧ x.framesQueued < 8
    · have hone : s.produceOne = some ((s.setDt
          (s.egress.dt ++ [.readout (s.nextFrame x)])).setEngine (.sending x.placed)) := by
        simp [State.produceOne, he, Egress.dtFree, hh, ReadoutRecord.wantsFrame, hc,
          offsetsInMemory_frameOffsets hm, Config.dtCapacity, Config.readoutPlaces]
      simp only [State.produceUpTo, hone, Option.bind_some]
      obtain ⟨fs, y, ⟨h₁, h₂, h₃, h₄⟩, h₅⟩ := ih ((s.setDt
          (s.egress.dt ++ [.readout (s.nextFrame x)])).setEngine (.sending x.placed)) x.placed
        rfl hh hm (by
          simp only [State.setDt, State.setEngine, ReadoutRecord.placed, framesToPlace,
            List.length_append, List.length_singleton, hc] at hn ⊢
          simp only [ReadoutRecord.frameWords, Config.readoutFrameWords] at *
          by_cases hl : x.total ≤ x.nextOffset + min 48 (x.total - x.nextOffset) <;>
            simp [hl] at hn ⊢ <;> omega)
      have hlen : (s.nextFrame x).words.length = min 48 (x.total - x.nextOffset) := by
        simp [State.nextFrame, Ring.frameOffsets, ReadoutRecord.frameWords,
          Config.readoutFrameWords]
      have hwords : (s.nextFrame x).words = (List.range (s.nextFrame x).words.length).map fun j =>
          readoutWord s x (x.nextOffset + j) := by
        rw [hlen]
        simp only [State.nextFrame, Ring.frameOffsets, List.map_map, ReadoutRecord.frameWords,
          Config.readoutFrameWords]
        refine List.map_congr_left fun j _ => ?_
        simp only [Function.comp_apply, readoutWord, Ring.readoutOffset]
        cases x.part <;> rfl
      refine ⟨s.nextFrame x :: fs, y, ⟨?_, ⟨⟨?_, ?_, ?_, rfl, rfl, ?_, ?_⟩, ?_⟩, ?_, ?_⟩, ?_⟩
      · rw [List.length_cons, h₁]
        simp only [State.setDt, State.setEngine, ReadoutRecord.placed, framesToPlace,
          List.length_append, List.length_singleton, hc, ReadoutRecord.frameWords,
          Config.readoutFrameWords]
        by_cases hl : x.total ≤ x.nextOffset + min 48 (x.total - x.nextOffset) <;>
          simp [hl] <;> omega
      · rw [h₄]; rfl
      · rw [h₄]; rfl
      · rw [h₄]; rfl
      · rw [h₄, hlen]; exact decide_eq_true_iff
      · intro hl
        simp only [State.nextFrame, decide_eq_true_eq] at hl
        have : fs.length = 0 := by
          rw [h₁]; simp [framesToPlace, ReadoutRecord.placed, hl]
        exact List.length_eq_zero_iff.mp this
      · rw [hlen]
        simpa [ReadoutRecord.placed, ReadoutRecord.frameWords, Config.readoutFrameWords] using h₂
      · intro f hf
        rcases List.mem_cons.mp hf with rfl | hf
        · exact ⟨hlen, rfl, hwords⟩
        · exact h₃ f hf
      · rw [h₄]
        congr 1
        · simp only [ReadoutRecord.placed, ReadoutRecord.frameWords, Config.readoutFrameWords,
            List.length_cons]
          omega
        · simp only [ReadoutRecord.placed, List.length_cons]; omega
        · rw [Bool.eq_iff_iff]
          simp only [Bool.or_eq_true, decide_eq_true_eq, hc, Bool.false_eq_true, false_or]
          have hq : x.placed.lastQueued = true ↔ x.total ≤ x.nextOffset + x.frameWords :=
            decide_eq_true_iff
          rw [hq]
          simp only [ReadoutRecord.placed, ReadoutRecord.frameWords, Config.readoutFrameWords,
            List.length_cons]
          omega
      · rw [h₅]; simp [State.setDt, State.setEngine]
    · have hone : s.produceOne = some s := by
        have : (s.egress.dtFree && x.wantsFrame) = false := by
          simp only [Egress.dtFree, hh, ReadoutRecord.wantsFrame, Config.dtCapacity,
            Config.readoutPlaces]
          cases hl : x.lastQueued <;> simp [hl] at hc ⊢ <;> omega
        simp [State.produceOne, he, this]
      have hz : min (min (8 - x.framesQueued) (16 - s.egress.dt.length)) (framesToPlace x) = 0 := by
        simp only [framesToPlace]
        cases hl : x.lastQueued <;> simp [hl] at hc ⊢; omega
      simp only [State.produceUpTo, hone, Option.bind_some]
      exact ih s x he hh hm (by omega)

/-- Everything the engine's examination does in SENDING while DT takes frames (R95). -/
theorem State.examineEngine_sending {s : State} {x : ReadoutRecord}
    (he : s.readout.engine = .sending x) (hh : s.egress.held = false) (hm : ReadoutInMemory s x) :
    ∃ frames y, PlacesFrames s x y (16 - s.egress.dt.length) frames
      ∧ s.examineEngine = some { s with
          egress := { s.egress with dt := s.egress.dt ++ frames.map .readout }
          readout := { s.readout with engine := .sending y } } := by
  have hp : s.placeTerminator = s := by simp only [State.placeTerminator, he]
  simp only [State.examineEngine, hp]
  exact State.produceUpTo_places _ s x he hh hm (by simp only [Config.readoutPlaces]; omega)

/-! ### The scheduler -/

/-- Everything an offer to FW does (R150, R152, R160). -/
theorem State.offerFw_cases (s : State) (bytes : List Byte) :
    (s.egress.held = true
        ∧ s.offerFw bytes
          = { s with egress := { s.egress with downDiscards := bump32 s.egress.downDiscards } })
      ∨ (s.egress.held = false ∧ s.egress.fw.length < Config.fwCapacity
        ∧ s.offerFw bytes
          = { s with
              egress := { s.egress with fw := s.egress.fw ++ [bytes] }
              fPort := { s.fPort with
                occupancy := s.fPort.occupancy ++ [.joined (s.egress.fw.length + 1)] } })
      ∨ (s.egress.held = false ∧ Config.fwCapacity ≤ s.egress.fw.length
        ∧ s.offerFw bytes
          = { s with egress := { s.egress with fwDrops := bump32 s.egress.fwDrops } }) := by
  simp only [State.offerFw]
  split
  · next h => exact .inl ⟨h, rfl⟩
  · next h =>
    have h : s.egress.held = false := by simpa using h
    split
    · next hl => exact .inr (.inl ⟨h, hl, rfl⟩)
    · next hl => exact .inr (.inr ⟨h, by omega, rfl⟩)

/-- Everything placing a frame in OB does (R162). -/
theorem State.placeOb_cases (s : State) (bytes : List Byte) :
    (s.egress.ob.length < Config.obCapacity
        ∧ s.placeOb bytes
          = { s with
              egress := { s.egress with ob := s.egress.ob ++ [bytes] }
              cPort := { s.cPort with
                occupancy := s.cPort.occupancy ++ [.joined (s.egress.ob.length + 1)] } })
      ∨ (Config.obCapacity ≤ s.egress.ob.length
        ∧ s.placeOb bytes
          = { s with egress := { s.egress with obDrops := bump32 s.egress.obDrops } }) := by
  simp only [State.placeOb]
  split
  · next h => exact .inl ⟨h, rfl⟩
  · next h => exact .inr ⟨by omega, rfl⟩

/-- Everything the closing of the open frame does (R153, R154, R155). -/
theorem State.closeReduced_cases (s : State) (records : List OutputRecord) :
    (s.reducedEnters = true
        ∧ s.closeReduced records
          = { s with egress := { s.egress with
              dt := s.egress.dt ++ [.reduced records], openFrame := [], holdTimer := .stopped } })
      ∨ (s.reducedEnters = false
        ∧ s.closeReduced records
          = { s with egress := { s.egress with
              reducedDropped := sat32 (s.egress.reducedDropped + records.length), openFrame := [],
              holdTimer := .stopped } }) := by
  simp only [State.closeReduced]
  split
  · next h => exact .inl ⟨h, rfl⟩
  · next h => exact .inr ⟨by simpa using h, rfl⟩

/-- With no terminating frame pending there is none to place (R102). -/
theorem State.placeTerminator_eq_self {s : State}
    (h : ∀ x, s.readout.engine = .terminating x → x.pending = false) : s.placeTerminator = s := by
  rcases State.placeTerminator_cases s with hp | ⟨x, hx, hp, _⟩
  · exact hp
  · simp [h x hx] at hp

/-- Placing a reply changes MR alone, and nothing while the C-port is not UP (R130, R157, R160). -/
theorem State.placeReply_eq (s : State) (place : Fin 4) (r : Reply) :
    s.placeReply place r = { s with egress := { s.egress with
      mr := if s.egress.held then s.egress.mr
        else s.egress.mr.filter (fun x => decide (x.place ≠ place)) ++ [⟨place, r⟩] } } := by
  simp only [State.placeReply]
  by_cases h : s.egress.held = true
  · rw [if_pos h, if_pos h]
  · rw [if_neg h, if_neg h]

end Sys2Proof.Machine

namespace Sys2Proof

open Sys2Proof.Machine

@[simp] theorem readoutFrames_append (p q : List DtFrame) :
    readoutFrames (p ++ q) = readoutFrames p ++ readoutFrames q := by
  induction p with
  | nil => rfl
  | cons f p ih => cases f <;> simp [readoutFrames, ih]

/-- The count of READOUT frames in DT is the length of their list (R140, R156). -/
theorem readoutsInDt_eq (q : List DtFrame) : readoutsInDt q = (readoutFrames q).length := by
  induction q with
  | nil => rfl
  | cons f q ih => cases f <;> simp_all [readoutsInDt, readoutFrames]

/-- A run of frames with one more at its end. -/
theorem framesRun_append {x y : ReadoutRecord} {fs : List ReadoutFrame} {f : ReadoutFrame} {o : Nat}
    (h : framesRun x fs o) (hl : ∀ g ∈ fs, g.last = false)
    (hy : y.id = x.id ∧ y.ring = x.ring ∧ y.part = x.part ∧ y.total = x.total)
    (hf : f.id = x.id ∧ f.ring = x.ring ∧ f.part = x.part ∧ f.aborted = false
      ∧ f.offset = x.nextOffset ∧ (f.last = true ↔ x.total ≤ x.nextOffset + f.words.length))
    (hn : y.nextOffset = x.nextOffset + f.words.length) : framesRun y (fs ++ [f]) o := by
  induction fs generalizing o with
  | nil =>
    simp only [framesRun] at h
    subst h
    simp only [List.nil_append, framesRun, hy, hf, hn, and_true, implies_true]
  | cons g fs ih =>
    obtain ⟨⟨h₁, h₂, h₃, h₄, h₅, h₆, h₇⟩, hr⟩ := h
    have hg : g.last = false := hl g (by simp)
    refine ⟨⟨h₁.trans hy.1.symm, h₂.trans hy.2.1.symm, h₃.trans hy.2.2.1.symm, h₄, h₅, ?_, ?_⟩,
      ih hr fun a ha => hl a (by simp [ha])⟩
    · rw [h₆, hy.2.2.2]
    · simp [hg]

end Sys2Proof
end

