-- ==== Sys2Proof/Laws/Events.lean ====
section
/-! SUPPORT. What the event unit's shared operations can do (chapter 6). -/

namespace Sys2Proof.Machine

/-- Everything settling a loss does (R111): nothing, or one LOSS record at the tail. -/
theorem EventUnit.settleLoss_cases (e : EventUnit) (now : Nat) :
    e.settleLoss now = e
      ∨ (e.queue.length < Config.eventCapacity ∧ e.pendingLoss ≠ 0
        ∧ e.settleLoss now = { e with
            queue := e.queue ++ [ownRecord .loss 0 (some e.pendingLoss) now e.serial]
            serial := wrap16 (e.serial + 1)
            pendingLoss := 0 }) := by
  simp only [EventUnit.settleLoss]
  split
  · next h => exact .inr ⟨h.1, h.2, rfl⟩
  · exact .inl rfl

/-- Everything queueing a request does (R107, R110): one record at the tail, or one more loss. -/
theorem EventUnit.enqueue_cases (e : EventUnit) (r : EventRequest) :
    (e.queue.length < Config.eventCapacity
        ∧ e.enqueue r = { e with queue := e.queue ++ [r.toRecord e.serial]
                                 serial := wrap16 (e.serial + 1) })
      ∨ (Config.eventCapacity ≤ e.queue.length
        ∧ e.enqueue r = { e with pendingLoss := bump32 e.pendingLoss
                                 lifetimeLoss := bump32 e.lifetimeLoss }) := by
  simp only [EventUnit.enqueue]
  split
  · next h => exact .inl ⟨h, rfl⟩
  · next h => exact .inr ⟨by omega, rfl⟩

@[simp] theorem returnToUnsent_length (q : List EventRecord) :
    (returnToUnsent q).length = q.length := by
  simp [returnToUnsent]

@[simp] theorem sentCount_returnToUnsent (q : List EventRecord) :
    sentCount (returnToUnsent q) = 0 := by
  simp [sentCount, returnToUnsent, List.countP_eq_zero]

@[simp] theorem sentCount_append (q u : List EventRecord) :
    sentCount (q ++ u) = sentCount q + sentCount u := by
  simp [sentCount]

/-- Marking records SENT keeps how many there are. -/
@[simp] theorem markSent_length (q : List EventRecord) (n : Nat) : (markSent q n).length = q.length := by
  induction q generalizing n with
  | nil => rfl
  | cons r q ih =>
    cases n with
    | zero => rfl
    | succ n => simp only [markSent]; split <;> simp [ih]

/-- Marking `n` records SENT adds them to those that are, as far as there are UNSENT ones. -/
theorem sentCount_markSent (q : List EventRecord) (n : Nat) (h : n ≤ unsentCount q) :
    sentCount (markSent q n) = sentCount q + n := by
  induction q generalizing n with
  | nil => simp [unsentCount] at h; subst h; rfl
  | cons r q ih =>
    cases n with
    | zero => rfl
    | succ n =>
      cases hr : r.sent with
      | sent =>
        have hq : n + 1 ≤ unsentCount q := by simpa [unsentCount, hr] using h
        have := ih (n + 1) hq
        simp only [markSent, hr]
        simp only [sentCount, List.countP_cons, hr] at this ⊢
        omega
      | unsent =>
        have hq : n ≤ unsentCount q := by
          simp only [unsentCount, List.countP_cons, hr] at h ⊢
          simp at h
          omega
        have := ih n hq
        simp only [markSent, hr]
        simp only [sentCount, List.countP_cons, hr] at this ⊢
        simp
        omega

/-- An acknowledgement that names records names at least one and at most all of them, and the last of
them is SENT with the serial (R120). -/
theorem ackLength_eq_some {q : List EventRecord} {serial n : Nat} (h : ackLength q serial = some n) :
    ∃ gone r rest, q = gone ++ r :: rest ∧ n = gone.length + 1 ∧ r.serial = serial ∧ r.sent = .sent := by
  induction q generalizing n with
  | nil => cases h
  | cons x q ih =>
    simp only [ackLength] at h
    split at h
    · next hx => cases h; exact ⟨[], x, q, rfl, rfl, hx.1, hx.2⟩
    · simp only [Option.map_eq_some_iff] at h
      obtain ⟨m, hm, rfl⟩ := h
      obtain ⟨gone, r, rest, rfl, rfl, h₁, h₂⟩ := ih hm
      exact ⟨x :: gone, r, rest, rfl, rfl, h₁, h₂⟩

end Sys2Proof.Machine
end

