-- ==== Sys2Proof/Laws/Memory.lean ====
section
/-! SUPPORT. Capture memory: a read after a write, and that every write keeps the canonical form (R65,
R66). -/

namespace Sys2Proof.Machine

/-- A list of cells in the canonical form. -/
abbrev cellsGood (cs : List (Nat × Int)) : Prop :=
  cellsRising cs = true ∧ ∀ c ∈ cs, c.1 < Config.captureWords ∧ c.2 ≠ 0

theorem CaptureMemory.wf_iff (m : CaptureMemory) : m.wf = true ↔ cellsGood m.cells := by
  simp [CaptureMemory.wf, cellsGood]

/-- Offsets rise through a list exactly when the first is below the rest and the rest rise. -/
theorem cellsRising_cons (c : Nat × Int) (cs : List (Nat × Int)) :
    cellsRising (c :: cs) = true ↔ (∀ d ∈ cs, c.1 < d.1) ∧ cellsRising cs = true := by
  induction cs generalizing c with
  | nil => simp [cellsRising]
  | cons d ds ih =>
    simp only [cellsRising, Bool.and_eq_true, decide_eq_true_eq, ih d, List.mem_cons]
    constructor
    · rintro ⟨h, hd, hr⟩
      refine ⟨?_, hd, hr⟩
      rintro x (rfl | hx)
      · exact h
      · exact Nat.lt_trans h (hd x hx)
    · rintro ⟨h, hd, hr⟩
      exact ⟨h d (.inl rfl), hd, hr⟩

/-- An offset below every listed one reads 0. -/
theorem cellRead_below {cs : List (Nat × Int)} {o : Nat} (h : ∀ d ∈ cs, o < d.1) : cellRead cs o = 0 := by
  induction cs with
  | nil => rfl
  | cons d ds ih =>
    have hd := h d (by simp)
    simp only [cellRead]
    rw [if_neg (by omega)]
    exact ih fun x hx => h x (by simp [hx])

/-- The offsets of a list of cells with one word written are the old ones and that word's. -/
theorem cellWrite_mem {cs : List (Nat × Int)} {o : Nat} {v : Int} {c : Nat × Int}
    (h : c ∈ cellWrite cs o v) : c ∈ cs ∨ (c = (o, v) ∧ v ≠ 0) := by
  induction cs with
  | nil =>
    simp only [cellWrite] at h
    split at h
    · simp at h
    · next hv => exact .inr ⟨by simpa using h, hv⟩
  | cons d ds ih =>
    simp only [cellWrite] at h
    split at h
    · split at h
      · exact .inl h
      · next hv =>
        rcases List.mem_cons.mp h with h | h
        · exact .inr ⟨h, hv⟩
        · exact .inl h
    · split at h
      · split at h
        · exact .inl (by simp [h])
        · next hv =>
          rcases List.mem_cons.mp h with h | h
          · exact .inr ⟨h, hv⟩
          · exact .inl (by simp [h])
      · rcases List.mem_cons.mp h with h | h
        · exact .inl (by simp [h])
        · rcases ih h with h | h
          · exact .inl (by simp [h])
          · exact .inr h

/-- A write keeps offsets rising. -/
theorem cellWrite_rising {cs : List (Nat × Int)} (o : Nat) (v : Int) (h : cellsRising cs = true) :
    cellsRising (cellWrite cs o v) = true := by
  induction cs with
  | nil => simp only [cellWrite]; split <;> rfl
  | cons d ds ih =>
    have hd := (cellsRising_cons d ds).mp h
    simp only [cellWrite]
    split
    · next ho =>
      split
      · exact h
      · refine (cellsRising_cons _ _).mpr ⟨?_, h⟩
        intro x hx
        rcases List.mem_cons.mp hx with rfl | hx
        · exact ho
        · exact Nat.lt_trans ho (hd.1 x hx)
    · split
      · next ho =>
        split
        · exact hd.2
        · refine (cellsRising_cons _ _).mpr ⟨?_, hd.2⟩
          intro x hx
          have := hd.1 x hx
          simp only
          omega
      · next h₁ h₂ =>
        refine (cellsRising_cons _ _).mpr ⟨?_, ih hd.2⟩
        intro x hx
        rcases cellWrite_mem hx with hx | ⟨rfl, -⟩
        · exact hd.1 x hx
        · simp only
          omega

/-- A read after a write to a list of cells that rise: the word written, or what stood there. -/
theorem cellRead_cellWrite {cs : List (Nat × Int)} (o : Nat) (v : Int) (h : cellsRising cs = true)
    (a : Nat) : cellRead (cellWrite cs o v) a = if a = o then v else cellRead cs a := by
  induction cs with
  | nil =>
    simp only [cellWrite]
    split
    · next hv => simp [cellRead, hv]
    · simp only [cellRead, eq_comm]
  | cons d ds ih =>
    have hd := (cellsRising_cons d ds).mp h
    simp only [cellWrite]
    split
    · next ho =>
      have hz : cellRead (d :: ds) o = 0 := cellRead_below fun x hx => by
        rcases List.mem_cons.mp hx with rfl | hx
        · exact ho
        · exact Nat.lt_trans ho (hd.1 x hx)
      split
      · next hv =>
        split
        · next ha => rw [ha, hz, hv]
        · rfl
      · simp only [cellRead, eq_comm]
    · split
      · next ho =>
        split
        · next hv =>
          split
          · next ha =>
            rw [hv, ha]
            exact cellRead_below fun x hx => by have := hd.1 x hx; omega
          · next ha => simp only [cellRead]; rw [if_neg (by omega)]
        · simp only [cellRead]
          by_cases ha : a = o
          · simp [ha]
          · rw [if_neg (by omega), if_neg ha, if_neg (by omega)]
      · next h₁ h₂ =>
        simp only [cellRead, ih hd.2]
        by_cases ha : d.1 = a
        · rw [if_pos ha, if_neg (by omega), if_pos ha]
        · rw [if_neg ha, if_neg ha]

/-- A write inside capture memory keeps the canonical form. -/
theorem CaptureMemory.write_wf {m : CaptureMemory} {o : Nat} {v : Int} (h : m.wf = true)
    (ho : o < Config.captureWords) : (m.write o v).wf = true := by
  rw [CaptureMemory.wf_iff] at h ⊢
  refine ⟨cellWrite_rising o v h.1, ?_⟩
  intro c hc
  rcases cellWrite_mem hc with hc | ⟨rfl, hv⟩
  · exact h.2 c hc
  · exact ⟨ho, hv⟩

/-- A read after a write: the word written, and every other word as before. -/
theorem CaptureMemory.read_write {m : CaptureMemory} (h : m.wf = true) (o : Nat) (v : Int) (a : Nat) :
    (m.write o v).read a = if a = o then v else m.read a :=
  cellRead_cellWrite o v ((m.wf_iff.mp h).1) a

@[simp] theorem CaptureMemory.read_empty (o : Nat) : (⟨[]⟩ : CaptureMemory).read o = 0 := rfl

/-- Writes in order inside capture memory keep the canonical form. -/
theorem CaptureMemory.writeAll_wf {m : CaptureMemory} {ws : List (Nat × Int)} (h : m.wf = true)
    (ho : ∀ w ∈ ws, w.1 < Config.captureWords) : (m.writeAll ws).wf = true := by
  induction ws generalizing m with
  | nil => exact h
  | cons w ws ih =>
    exact ih (CaptureMemory.write_wf h (ho w (by simp))) fun x hx => ho x (by simp [hx])

/-- Writes in order leave every word at an offset they do not name as it was. -/
theorem CaptureMemory.read_writeAll_other {m : CaptureMemory} {ws : List (Nat × Int)} {a : Nat}
    (h : m.wf = true) (ho : ∀ w ∈ ws, w.1 < Config.captureWords) (ha : ∀ w ∈ ws, w.1 ≠ a) :
    (m.writeAll ws).read a = m.read a := by
  induction ws generalizing m with
  | nil => rfl
  | cons w ws ih =>
    have hw := ih (CaptureMemory.write_wf (v := w.2) h (ho w (by simp)))
      (fun x hx => ho x (by simp [hx])) (fun x hx => ha x (by simp [hx]))
    refine hw.trans ?_
    rw [CaptureMemory.read_write h, if_neg (Ne.symm (ha w (by simp)))]

/-- The offsets an operation may touch are in capture memory exactly when each is. -/
theorem offsetsInMemory_iff (os : List Nat) :
    offsetsInMemory os = true ↔ ∀ o ∈ os, o < Config.captureWords := by
  simp [offsetsInMemory]

/-- Everything a write of words can do: they all lie in capture memory, and it alone changes. -/
theorem State.writeWords_eq_some {s t : State} {ws : List (Nat × Int)} (h : s.writeWords ws = some t) :
    (∀ w ∈ ws, w.1 < Config.captureWords) ∧ t = { s with memory := s.memory.writeAll ws } := by
  simp only [State.writeWords] at h
  split at h
  · next ho =>
    cases h
    refine ⟨fun w hw => (offsetsInMemory_iff _).mp ho w.1 (List.mem_map_of_mem hw), rfl⟩
  · cases h

/-- Right after reset capture memory is in the canonical form. -/
theorem State.reset_memory_wf : State.reset.memory.wf = true := rfl

/-- A command that touches capture memory goes on exactly where its operation does. -/
theorem captureOutcome_eq_next {x : Option State} {t : State} :
    captureOutcome x = .next t ↔ x = some t := by
  cases x <;> simp [captureOutcome]

end Sys2Proof.Machine
end

