-- ==== Sys2Proof/Laws/PerInstr.lean ====
section
/-! SUPPORT. Statements for all commands, one lemma per constructor of `Instr`. -/

namespace Sys2Proof.Laws

/-- A command is spelled by no word: the table of operations and events gives no row any bits
(assumption 18). -/
def ReadByNoWord.Statement (i : Instr) : Prop := ∀ nbits w : Nat, decodeTableWord nbits w ≠ some i

theorem ReadByNoWord.hardReset (cause : ResetCause) (straps : Fin 16) : ReadByNoWord.Statement (.hardReset cause straps) := by
  intro _ _ h; cases h
theorem ReadByNoWord.initialisationComplete : ReadByNoWord.Statement (.initialisationComplete) := by
  intro _ _ h; cases h
theorem ReadByNoWord.receiveTrain (p : PortId) (heard : Bool) : ReadByNoWord.Statement (.receiveTrain p heard) := by
  intro _ _ h; cases h
theorem ReadByNoWord.undecodableSymbol (p : PortId) : ReadByNoWord.Statement (.undecodableSymbol p) := by
  intro _ _ h; cases h
theorem ReadByNoWord.receiveHold (p : PortId) : ReadByNoWord.Statement (.receiveHold p) := by
  intro _ _ h; cases h
theorem ReadByNoWord.receiveGo (p : PortId) : ReadByNoWord.Statement (.receiveGo p) := by
  intro _ _ h; cases h
theorem ReadByNoWord.lossOfLock (p : PortId) : ReadByNoWord.Statement (.lossOfLock p) := by
  intro _ _ h; cases h
theorem ReadByNoWord.frameReceived (p : PortId) (bytes : List Byte) : ReadByNoWord.Statement (.frameReceived p bytes) := by
  intro _ _ h; cases h
theorem ReadByNoWord.holdSentChange (p : PortId) : ReadByNoWord.Statement (.holdSentChange p) := by
  intro _ _ h; cases h
theorem ReadByNoWord.flowSymbolRepeat (p : PortId) : ReadByNoWord.Statement (.flowSymbolRepeat p) := by
  intro _ _ h; cases h
theorem ReadByNoWord.sampleFrameTaken : ReadByNoWord.Statement (.sampleFrameTaken) := by
  intro _ _ h; cases h
theorem ReadByNoWord.fPortLeavingUpClassifier : ReadByNoWord.Statement (.fPortLeavingUpClassifier) := by
  intro _ _ h; cases h
theorem ReadByNoWord.fwPlace (way : FwWay) : ReadByNoWord.Statement (.fwPlace way) := by
  intro _ _ h; cases h
theorem ReadByNoWord.slotTakeSample (k : Fin 16) : ReadByNoWord.Statement (.slotTakeSample k) := by
  intro _ _ h; cases h
theorem ReadByNoWord.slotTakeGapMark (k : Fin 16) : ReadByNoWord.Statement (.slotTakeGapMark k) := by
  intro _ _ h; cases h
theorem ReadByNoWord.slotStart (k : Fin 16) : ReadByNoWord.Statement (.slotStart k) := by
  intro _ _ h; cases h
theorem ReadByNoWord.ruleTakeValue (k : Fin 32) : ReadByNoWord.Statement (.ruleTakeValue k) := by
  intro _ _ h; cases h
theorem ReadByNoWord.ruleTakeGapMark (k : Fin 32) : ReadByNoWord.Statement (.ruleTakeGapMark k) := by
  intro _ _ h; cases h
theorem ReadByNoWord.ringTakeItem (k : Fin 8) : ReadByNoWord.Statement (.ringTakeItem k) := by
  intro _ _ h; cases h
theorem ReadByNoWord.ringTakeGapMark (k : Fin 8) : ReadByNoWord.Statement (.ringTakeGapMark k) := by
  intro _ _ h; cases h
theorem ReadByNoWord.ringFreeze (k : Fin 8) (rule : Fin 32) : ReadByNoWord.Statement (.ringFreeze k rule) := by
  intro _ _ h; cases h
theorem ReadByNoWord.assemblerTakeRecord (k : Fin 16) : ReadByNoWord.Statement (.assemblerTakeRecord k) := by
  intro _ _ h; cases h
theorem ReadByNoWord.reducedHoldExpiry : ReadByNoWord.Statement (.reducedHoldExpiry) := by
  intro _ _ h; cases h
theorem ReadByNoWord.eventEnqueue (r : Requester) : ReadByNoWord.Statement (.eventEnqueue r) := by
  intro _ _ h; cases h
theorem ReadByNoWord.retransmitTimeout : ReadByNoWord.Statement (.retransmitTimeout) := by
  intro _ _ h; cases h
theorem ReadByNoWord.deliverySuspend : ReadByNoWord.Statement (.deliverySuspend) := by
  intro _ _ h; cases h
theorem ReadByNoWord.deliveryResume : ReadByNoWord.Statement (.deliveryResume) := by
  intro _ _ h; cases h
theorem ReadByNoWord.arbiterGrant : ReadByNoWord.Statement (.arbiterGrant) := by
  intro _ _ h; cases h
theorem ReadByNoWord.readoutFrameProduce : ReadByNoWord.Statement (.readoutFrameProduce) := by
  intro _ _ h; cases h
theorem ReadByNoWord.terminatingFramePlace : ReadByNoWord.Statement (.terminatingFramePlace) := by
  intro _ _ h; cases h
theorem ReadByNoWord.obSend : ReadByNoWord.Statement (.obSend) := by
  intro _ _ h; cases h
theorem ReadByNoWord.cPortLeavingUpEgress : ReadByNoWord.Statement (.cPortLeavingUpEgress) := by
  intro _ _ h; cases h
theorem ReadByNoWord.cPortComingUpEgress : ReadByNoWord.Statement (.cPortComingUpEgress) := by
  intro _ _ h; cases h
theorem ReadByNoWord.fPortLeavingUpEgress : ReadByNoWord.Statement (.fPortLeavingUpEgress) := by
  intro _ _ h; cases h
theorem ReadByNoWord.ident : ReadByNoWord.Statement (.ident) := by
  intro _ _ h; cases h
theorem ReadByNoWord.readEntry : ReadByNoWord.Statement (.readEntry) := by
  intro _ _ h; cases h
theorem ReadByNoWord.writeEntry : ReadByNoWord.Statement (.writeEntry) := by
  intro _ _ h; cases h
theorem ReadByNoWord.enable : ReadByNoWord.Statement (.enable) := by
  intro _ _ h; cases h
theorem ReadByNoWord.disable : ReadByNoWord.Statement (.disable) := by
  intro _ _ h; cases h
theorem ReadByNoWord.readStatus : ReadByNoWord.Statement (.readStatus) := by
  intro _ _ h; cases h
theorem ReadByNoWord.clearCounters : ReadByNoWord.Statement (.clearCounters) := by
  intro _ _ h; cases h
theorem ReadByNoWord.setTime : ReadByNoWord.Statement (.setTime) := by
  intro _ _ h; cases h
theorem ReadByNoWord.readRing : ReadByNoWord.Statement (.readRing) := by
  intro _ _ h; cases h
theorem ReadByNoWord.abortRead : ReadByNoWord.Statement (.abortRead) := by
  intro _ _ h; cases h
theorem ReadByNoWord.releaseHalf : ReadByNoWord.Statement (.releaseHalf) := by
  intro _ _ h; cases h
theorem ReadByNoWord.flushRing : ReadByNoWord.Statement (.flushRing) := by
  intro _ _ h; cases h
theorem ReadByNoWord.freezeRing : ReadByNoWord.Statement (.freezeRing) := by
  intro _ _ h; cases h
theorem ReadByNoWord.rearmRing : ReadByNoWord.Statement (.rearmRing) := by
  intro _ _ h; cases h
theorem ReadByNoWord.startSlot : ReadByNoWord.Statement (.startSlot) := by
  intro _ _ h; cases h
theorem ReadByNoWord.eventAck : ReadByNoWord.Statement (.eventAck) := by
  intro _ _ h; cases h
theorem ReadByNoWord.eventResync : ReadByNoWord.Statement (.eventResync) := by
  intro _ _ h; cases h
theorem ReadByNoWord.restart : ReadByNoWord.Statement (.restart) := by
  intro _ _ h; cases h
theorem ReadByNoWord.unknownCode : ReadByNoWord.Statement (.unknownCode) := by
  intro _ _ h; cases h
theorem ReadByNoWord.frameSendComplete (p : PortId) : ReadByNoWord.Statement (.frameSendComplete p) := by
  intro _ _ h; cases h
theorem ReadByNoWord.requestTooShort : ReadByNoWord.Statement (.requestTooShort) := by
  intro _ _ h; cases h

end Sys2Proof.Laws
end

