-- ==== Sys2Proof/Laws/Ports.lean ====
section
/-! SUPPORT. What the shared operations of the ports can do (chapter 9). -/

namespace Sys2Proof.Machine

/-- Cutting off the frame being sent: the transmitter is free, and nothing but it and the record of the
link changes (R168). -/
theorem Port.cutFrame_eq (x : Port) :
    x.cutFrame = { x with
      sending := none
      line := x.line ++ (if x.sending = none then [] else [.frameCut]) } := by
  cases x with
  | mk link tc h p hs fg ce ml sending fe oc line =>
    cases sending <;> simp [Port.cutFrame]

/-- The occupancy changes a port takes reach its hold-sent flag and its link only (R170). -/
theorem Port.takeOccupancy_eq (p : PortId) (x : Port) (o : OccupancyChange) :
    Port.takeOccupancy p x o = { x with
      holdSent := holdSentAfter p x.holdSent o
      line := x.line ++ (if holdSentAfter p x.holdSent o ≠ x.holdSent ∧ x.link = .up then
        [.symbol (if holdSentAfter p x.holdSent o then .hold else .go)] else []) } := by
  by_cases h : holdSentAfter p x.holdSent o ≠ x.holdSent ∧ x.link = .up
  · simp only [Port.takeOccupancy, if_pos h, Port.sendSymbol, Port.flowSymbol]
  · simp only [Port.takeOccupancy, if_neg h, List.append_nil]

/-- Everything a request that arrives can do (R129). -/
theorem State.arriveRequest_cases (s : State) (payload : List Byte) :
    (s.management.current = none
        ∧ s.arriveRequest payload
          = { s with management := { s.management with current := some payload } })
      ∨ (s.management.current ≠ none ∧ s.management.waiting.length < Config.pendingCapacity
        ∧ s.arriveRequest payload
          = { s with management := { s.management with
              waiting := s.management.waiting ++ [payload] } })
      ∨ (s.management.current ≠ none ∧ Config.pendingCapacity ≤ s.management.waiting.length
        ∧ s.arriveRequest payload
          = { s with cPort := { s.cPort with malformed := bump32 s.cPort.malformed } }) := by
  simp only [State.arriveRequest]
  split
  · next h => exact .inl ⟨h, rfl⟩
  · next x h =>
    split
    · next hl => exact .inr (.inl ⟨by simp [h], hl, rfl⟩)
    · next hl => exact .inr (.inr ⟨by simp [h], by omega, rfl⟩)

/-- Telling the other blocks of a link change leaves both ports and every table alone. -/
theorem State.tellLinkChange_eq (s : State) (p : PortId) (x : LinkChange) :
    s.tellLinkChange p x = { s with
      classifier := { s.classifier with inbox :=
        s.classifier.inbox ++ (if p = .f ∧ x = .leftUp then [.portLeftUp] else []) }
      egress := { s.egress with
        cChanges := s.egress.cChanges ++ (if p = .c then [x] else [])
        fLosses := s.egress.fLosses + (if p = .f ∧ x = .leftUp then 1 else 0) }
      events := { s.events with
        linkChanges := s.events.linkChanges ++ (if p = .c then [x] else []) } } := by
  cases p <;> cases x <;> simp [State.tellLinkChange]

end Sys2Proof.Machine
end

