-- ==== Sys2Proof/Laws/Requests.lean ====
section
/-! SUPPORT. What the shared operation of the request commands does (R128 to R131): one equation for each
way in which a request is taken, and the parts of the state that an answer changes. -/

namespace Sys2Proof

open Sys2Proof.Machine

/-- What makes a request execute gives the request and its code. -/
theorem Executes.request_eq {s : State} {q : Request} {code : Nat} (h : Executes s q code)
    (run : List Byte → State → Option Answer) :
    s.request code run = captureOutcome
      (if argumentLengthGood code q.args then
        (run q.args s).map fun a => answered a.2.2 q a.1 a.2.1
      else some (repliedOnly s q (bareReply q .badLength))) := by
  obtain ⟨hq, hc, ht, hn⟩ := h
  have ht' : ¬ Config.tags ≤ q.tag.toNat := by simp [Config.tags]; omega
  simp only [State.request, hq, hc, if_true, State.serve, ht', if_false, hn]
  rfl

/-- A request whose arguments have the right length is answered as its execution says. -/
theorem Executes.request_answers {s : State} {q : Request} {code : Nat} (h : Executes s q code)
    (run : List Byte → State → Option Answer) (hl : argumentLengthGood code q.args = true)
    {status : Status} {results : List Byte} {t : State}
    (hr : run q.args s = some (status, results, t)) :
    s.request code run = .next (answered t q status results) := by
  rw [h.request_eq]; simp [hl, hr, captureOutcome]

/-- The same of the command itself: `hx` is the command's meaning, by `rfl`. -/
theorem Executes.exec_answers {s : State} {q : Request} {code : Nat} {c : Instr}
    {run : List Byte → State → Option Answer} (h : Executes s q code)
    (hx : exec c s = s.request code run) (hl : argumentLengthGood code q.args = true)
    {status : Status} {results : List Byte} {t : State}
    (hr : run q.args s = some (status, results, t)) :
    exec c s = .next (answered t q status results) :=
  hx.trans (h.request_answers run hl hr)

/-- A request whose arguments have a wrong length is only replied to (R128 stage 5). -/
theorem Executes.request_badLength {s : State} {q : Request} {code : Nat} (h : Executes s q code)
    (run : List Byte → State → Option Answer) (hl : argumentLengthGood code q.args = false) :
    s.request code run = .next (repliedOnly s q (bareReply q .badLength)) := by
  rw [h.request_eq]; simp [hl, captureOutcome]

/-- A tag out of range is only replied to (R128 stage 2). -/
theorem Machine.State.request_badTag {s : State} {q : Request} {code : Nat}
    (run : List Byte → State → Option Answer) (hq : s.currentRequest = some q)
    (hc : q.code.toNat = code) (ht : 4 ≤ q.tag.toNat) :
    s.request code run = .next (repliedOnly s q (bareReply q .badLength)) := by
  simp only [State.request, hq, hc, if_true, State.serve, Config.tags, ht, captureOutcome]
  rfl

/-- A repeat of the cached number is answered from the cache (R128 stage 3). -/
theorem Machine.State.request_cached {s : State} {q : Request} {code : Nat} {r : Reply}
    (run : List Byte → State → Option Answer) (hq : s.currentRequest = some q)
    (hc : q.code.toNat = code) (ht : q.tag.toNat < 4) (hr : s.cachedFor q = some r) :
    s.request code run = .next (repliedOnly s q r) := by
  have ht' : ¬ Config.tags ≤ q.tag.toNat := by simp [Config.tags]; omega
  simp only [State.request, hq, hc, if_true, State.serve, ht', if_false, hr, captureOutcome]
  rfl

/-- A request command changes nothing where no request of its code is being executed (assumption 6). -/
theorem Machine.State.request_other {s : State} {code : Nat} (run : List Byte → State → Option Answer)
    (h : ∀ q, s.currentRequest = some q → q.code.toNat ≠ code) : s.request code run = .next s := by
  simp only [State.request]
  split
  · next q hq => simp [h q hq]
  · rfl

/-- What an answer changes: its tag's cache entry, MR, and the request list. -/
theorem answered_eq (s : State) (q : Request) (status : Status) (results : List Byte) :
    answered s q status results = { s with
      egress := { s.egress with
        mr := if s.egress.held then s.egress.mr
          else s.egress.mr.filter (fun x => decide (x.place ≠ tagPlace q.tag))
            ++ [⟨tagPlace q.tag, q.reply status results⟩] }
      management := { s.management with
        cache := s.management.cache.set (tagPlace q.tag) (some ⟨q.number, q.reply status results⟩)
        current := s.management.waiting.head?
        shares := Shares.reset
        waiting := s.management.waiting.tail } } := by
  simp only [answered, State.cacheAndPlace, State.finishRequest, State.placeReply]
  by_cases h : s.egress.held = true
  · rw [if_pos h, if_pos h]
  · rw [if_neg h, if_neg h]

/-- What a reply that is only placed changes: MR and the request list. -/
theorem repliedOnly_eq (s : State) (q : Request) (r : Reply) :
    repliedOnly s q r = { s with
      egress := { s.egress with
        mr := if s.egress.held then s.egress.mr
          else s.egress.mr.filter (fun x => decide (x.place ≠ tagPlace q.tag))
            ++ [⟨tagPlace q.tag, r⟩] }
      management := { s.management with
        current := s.management.waiting.head?
        shares := Shares.reset
        waiting := s.management.waiting.tail } } := by
  simp only [repliedOnly, State.finishRequest, State.placeReply]
  by_cases h : s.egress.held = true
  · rw [if_pos h, if_pos h]
  · rw [if_neg h, if_neg h]

/-- Every outcome of a request command: nothing, a reply that is only placed, or the answer of its
execution; a fault only where the execution itself meets one. -/
theorem Machine.State.request_cases {s : State} {code : Nat} {run : List Byte → State → Option Answer}
    {t : State} (h : s.request code run = .next t) :
    t = s ∨ (∃ q r, s.currentRequest = some q ∧ t = repliedOnly s q r)
      ∨ ∃ q status results u, Executes s q code ∧ argumentLengthGood code q.args = true
        ∧ run q.args s = some (status, results, u) ∧ t = answered u q status results := by
  cases hq : s.currentRequest with
  | none => simp only [State.request, hq] at h; cases h; exact .inl rfl
  | some q =>
    by_cases hc : q.code.toNat = code
    · by_cases ht : 4 ≤ q.tag.toNat
      · rw [State.request_badTag run hq hc ht] at h
        cases h; exact .inr (.inl ⟨q, _, rfl, rfl⟩)
      · cases hr : s.cachedFor q with
        | some r =>
          rw [State.request_cached run hq hc (by omega) hr] at h
          cases h; exact .inr (.inl ⟨q, r, rfl, rfl⟩)
        | none =>
          have he : Executes s q code := ⟨hq, hc, by omega, hr⟩
          by_cases hl : argumentLengthGood code q.args = true
          · rw [he.request_eq, if_pos hl] at h
            cases hx : run q.args s with
            | none => simp [hx, captureOutcome] at h
            | some a =>
              simp only [hx, Option.map_some, captureOutcome, Host.Outcome.next.injEq] at h
              exact .inr (.inr ⟨q, a.1, a.2.1, a.2.2, he, hl, hx, h.symm⟩)
          · rw [he.request_badLength run (by simpa using hl)] at h
            cases h; exact .inr (.inl ⟨q, _, rfl, rfl⟩)
    · simp only [State.request, hq, hc, if_false] at h; cases h; exact .inl rfl

/-! ### Requests that several blocks take part in (R141, R142, R145) -/

/-- A request reaches its execution exactly where it passes stages 1 to 5 of R128. -/
theorem Machine.State.executes_iff (s : State) (code : Nat) :
    s.executes code = true ↔ ∃ q, Executes s q code ∧ argumentLengthGood code q.args = true := by
  simp only [State.executes, Executes]
  cases hq : s.currentRequest with
  | none => simp
  | some q =>
    simp only [Config.tags, Option.some.injEq, Bool.and_eq_true, decide_eq_true_eq,
      Option.isNone_iff_eq_none]
    constructor
    · rintro ⟨⟨⟨hc, ht⟩, hn⟩, hl⟩
      exact ⟨q, ⟨rfl, hc, ht, hn⟩, hl⟩
    · rintro ⟨q', ⟨rfl, hc, ht, hn⟩, hl⟩
      exact ⟨⟨⟨hc, ht⟩, hn⟩, hl⟩

theorem Executes.executes_eq {s : State} {q : Request} {code : Nat} (h : Executes s q code)
    (hl : argumentLengthGood code q.args = true) : s.executes code = true :=
  (s.executes_iff code).mpr ⟨q, h, hl⟩

/-- The blocks still to take their share are those asked that have not. -/
theorem Machine.State.mem_outstanding {s : State} {blocks : List Block} {b : Block} :
    b ∈ s.outstanding blocks ↔ b ∈ blocks ∧ b ∉ s.management.shares.taken := by
  simp [State.outstanding]

/-- Whatever the free choice, the block chosen is one that has still to take its share. -/
theorem Machine.State.chooseShare_mem {s : State} {blocks : List Block} {b : Block}
    (h : s.chooseShare blocks = some b) : b ∈ blocks ∧ b ∉ s.management.shares.taken :=
  State.mem_outstanding.mp (List.mem_of_getElem? h)

/-- No block is chosen exactly when every block has taken its share. -/
theorem Machine.State.chooseShare_eq_none {s : State} {blocks : List Block} :
    s.chooseShare blocks = none ↔ s.outstanding blocks = [] := by
  simp only [State.chooseShare, List.getElem?_eq_none_iff]
  constructor
  · intro h
    by_contra hne
    have := Nat.mod_lt (Config.nextShare s.choices) (List.length_pos_of_ne_nil hne)
    omega
  · intro h
    simp [h]

/-- While blocks have still to take their share, one of them does so, as one event. -/
theorem Executes.gather_share {s : State} {q : Request} {code : Nat} (h : Executes s q code)
    (hl : argumentLengthGood code q.args = true) {blocks : List Block}
    (work : Block → State → State) (answer : State → Answer) (hn : s.outstanding blocks ≠ []) :
    ∃ b, b ∈ blocks ∧ b ∉ s.management.shares.taken
      ∧ s.gather code blocks work answer
        = .next { s.takeShare work b with choices := s.choices + 1 } := by
  cases hb : s.chooseShare blocks with
  | none => exact absurd (State.chooseShare_eq_none.mp hb) hn
  | some b =>
    obtain ⟨h₁, h₂⟩ := State.chooseShare_mem hb
    exact ⟨b, h₁, h₂, by simp only [State.gather, h.executes_eq hl, hb]⟩

/-- Once every block has taken its share, the management unit answers. -/
theorem Executes.gather_answers {s : State} {q : Request} {code : Nat} (h : Executes s q code)
    (hl : argumentLengthGood code q.args = true) {blocks : List Block}
    (work : Block → State → State) (answer : State → Answer) (hn : s.outstanding blocks = []) :
    s.gather code blocks work answer
      = .next (answered (answer s).2.2 q (answer s).1 (answer s).2.1) := by
  simp only [State.gather, h.executes_eq hl, State.chooseShare_eq_none.mpr hn]
  exact h.request_answers _ hl rfl

/-- A request that does not reach its execution is taken like every other. -/
theorem Machine.State.gather_eq_request {s : State} {code : Nat} (blocks : List Block)
    (work : Block → State → State) (answer : State → Answer) (h : s.executes code = false) :
    s.gather code blocks work answer = s.request code fun _ t => some (answer t) := by
  simp only [State.gather, h]

/-- Everything such a request command can do: what it does where its request does not reach execution,
one block's share, or the answer after the last. -/
theorem Machine.State.gather_cases {s t : State} {code : Nat} {blocks : List Block}
    {work : Block → State → State} {answer : State → Answer}
    (h : s.gather code blocks work answer = .next t) :
    (t = s ∨ ∃ q r, s.currentRequest = some q ∧ t = repliedOnly s q r)
      ∨ (∃ q b, Executes s q code ∧ b ∈ blocks ∧ b ∉ s.management.shares.taken
        ∧ t = { s.takeShare work b with choices := s.choices + 1 })
      ∨ ∃ q, Executes s q code ∧ s.outstanding blocks = []
        ∧ t = answered (answer s).2.2 q (answer s).1 (answer s).2.1 := by
  cases he : s.executes code with
  | false =>
    rw [State.gather_eq_request blocks work answer he] at h
    rcases State.request_cases h with h | h | ⟨q, _, _, _, hx, hl, _, _⟩
    · exact .inl (.inl h)
    · exact .inl (.inr h)
    · exact absurd (hx.executes_eq hl) (by simp [he])
  | true =>
    obtain ⟨q, hx, hl⟩ := (s.executes_iff code).mp he
    by_cases hn : s.outstanding blocks = []
    · rw [hx.gather_answers hl work answer hn] at h
      cases h; exact .inr (.inr ⟨q, hx, hn, rfl⟩)
    · obtain ⟨b, h₁, h₂, h₃⟩ := hx.gather_share hl work answer hn
      rw [h₃] at h
      cases h; exact .inr (.inl ⟨q, b, hx, h₁, h₂, rfl⟩)

/-- When the event unit reports the EV class ready (R115). -/
theorem Machine.State.evReady_iff (s : State) :
    s.events.ready s.management.global.eventWindow = true ↔ EvReady s := by
  simp [EventUnit.ready, EvReady, unsentCount, sentCount, List.countP_eq_length_filter, and_assoc]

/-- What the scheduler waits for before it releases its queues (R174). -/
theorem Machine.State.leads_iff (s : State) : s.events.leads = true ↔ EventsLead s := by
  simp [EventUnit.leads, EventsLead]

end Sys2Proof
end

