-- ==== Sys2Proof/Laws/Rings.lean ====
section
/-! SUPPORT. What closing a half, filling it, freezing a snapshot and taking words can do (chapter 4). -/

namespace Sys2Proof

open Sys2Proof.Machine

namespace Machine

@[simp] theorem HalfId.other_other (h : HalfId) : h.other.other = h := by cases h <;> rfl
@[simp] theorem HalfId.other_ne (h : HalfId) : h.other ≠ h := by cases h <;> simp [HalfId.other]

@[simp] theorem StreamState.half_setHalf_self (x : StreamState) (h : HalfId) (y : Half) :
    (x.setHalf h y).half h = y := by cases h <;> rfl
@[simp] theorem StreamState.half_setHalf_other (x : StreamState) (h : HalfId) (y : Half) :
    (x.setHalf h y).half h.other = x.half h.other := by cases h <;> rfl
@[simp] theorem StreamState.half_other_setHalf (x : StreamState) (h : HalfId) (y : Half) :
    (x.setHalf h.other y).half h = x.half h := by cases h <;> rfl
@[simp] theorem StreamState.setHalf_setHalf (x : StreamState) (h : HalfId) (y z : Half) :
    (x.setHalf h y).setHalf h z = x.setHalf h z := by cases h <;> rfl
@[simp] theorem StreamState.setHalf_half (x : StreamState) (h : HalfId) :
    x.setHalf h (x.half h) = x := by cases h <;> rfl
@[simp] theorem StreamState.setHalf_writer (x : StreamState) (h : HalfId) (y : Half) :
    (x.setHalf h y).writer = x.writer := by cases h <;> rfl
@[simp] theorem StreamState.setHalf_heldMark (x : StreamState) (h : HalfId) (y : Half) :
    (x.setHalf h y).heldMark = x.heldMark := by cases h <;> rfl

/-- The half the writer begins (R75, R77, R78): the rest of the ring's STREAM state stays. -/
theorem StreamState.beginFilling_eq (x : StreamState) (h : HalfId) :
    (x.beginFilling h).half h = ⟨.filling, 0, x.heldMark, false⟩
      ∧ (x.beginFilling h).half h.other = x.half h.other
      ∧ (x.beginFilling h).writer = .filling h ∧ (x.beginFilling h).heldMark = false := by
  cases h <;> exact ⟨rfl, rfl, rfl, rfl⟩

end Machine

/-- Everything closing a half does, by the table of R75: the ring it leaves, and the requests it makes. -/
theorem Machine.Ring.closeHalf_spec (r : Ring) (k : Fin 8) (h : HalfId) (now : Nat) :
    HalfClosed r (r.closeHalf k h now).1 h
      ∧ (r.closeHalf k h now).2 = closingRequests k r h now := by
  have hs : k.val * 2 + h.number = halfSubject k h := by cases h <;> rfl
  have ho : k.val * 2 + h.other.number = halfSubject k h.other := by cases h <;> rfl
  cases hst : (r.stream.half h.other).state <;> cases hov : r.overflow <;>
    (refine ⟨⟨?_, ?_, ?_, ?_⟩, ?_⟩ <;> cases h <;> cases hn : r.notify <;>
      simp_all [Ring.closeHalf, StreamState.beginFilling, StreamState.setHalf, StreamState.half,
        HalfId.other, sat32, Ring.notified, closingRequests, halfRequest, ClosingOverwrites,
        halfSubject, HalfId.number])

/-- Everything going FROZEN does (R85, R89, R90). -/
theorem Machine.Ring.goFrozen_spec (r : Ring) (k : Fin 8) (p : PendingTrigger) (now : Nat) :
    WentFrozen r (r.goFrozen k p now).1 p now
      ∧ (r.goFrozen k p now).2 = frozenRequests k r p.trigger now := by
  refine ⟨rfl, ?_⟩
  simp only [Ring.goFrozen, Ring.notified, frozenRequests, frozenRequest, SnapshotState.makeRecord]
  cases r.notify <;> cases p.trigger <;> rfl

namespace Machine

/-- How many words an item gives: none of a mark, two of a PEAK pair, else one (R71). -/
theorem StreamItem.words_length (item : StreamItem) : item.words.length ≤ 2 := by
  cases item with
  | sample v i => simp [StreamItem.words]
  | record r => cases hd : r.data <;> simp [StreamItem.words, hd]
  | mark => simp [StreamItem.words]

@[simp] theorem wordsAt_length (o : Nat) (ws : List Int) : (wordsAt o ws).length = ws.length := by
  induction ws generalizing o with
  | nil => rfl
  | cons w ws ih => simp [wordsAt, ih]

/-- The offsets of words placed from an offset on. -/
theorem wordsAt_mem {o : Nat} {ws : List Int} {c : Nat × Int} (h : c ∈ wordsAt o ws) :
    o ≤ c.1 ∧ c.1 < o + ws.length := by
  induction ws generalizing o with
  | nil => simp [wordsAt] at h
  | cons w ws ih =>
    rcases List.mem_cons.mp h with rfl | h
    · simp
    · have := ih h
      simp only [List.length_cons]
      omega

/-- The range offsets of words written round a range stay in it. -/
theorem roundPositions_lt {length position n : Nat} (hl : 0 < length) (hp : position < length) :
    ∀ x ∈ roundPositions length position n, x < length := by
  induction n generalizing position with
  | zero => simp [roundPositions]
  | succ n ih =>
    intro x hx
    rcases List.mem_cons.mp hx with rfl | hx
    · exact hp
    · exact ih (Nat.mod_lt _ hl) x hx

/-- Everything the taking of words can do: the ring, its requests and the words it writes. -/
theorem State.ringTakesWords_eq_some {s t : State} {k : Fin 8} {r : Ring} {ws : List Int}
    (h : s.ringTakesWords k r ws = some t) :
    (∀ w ∈ (r.takeWords k ws s.timebase).2.1, w.1 < Config.captureWords)
      ∧ t = { s with
          rings := s.rings.set k (r.takeWords k ws s.timebase).1
          events := { s.events with
            requests := s.events.requests ++ (r.takeWords k ws s.timebase).2.2 }
          memory := s.memory.writeAll (r.takeWords k ws s.timebase).2.1 } := by
  obtain ⟨ho, rfl⟩ := State.writeWords_eq_some h
  exact ⟨ho, rfl⟩

end Machine

end Sys2Proof
end

