-- ==== Sys2Proof/WellFormed.lean ====
section
/-! DEFINITION. Which commands describe an event that can reach the part at all. -/

namespace Sys2Proof

/-- A low on RSTn shorter than 10 µs causes no hard reset (R165). -/
def ResetCause.wellFormed : ResetCause → Bool
  | .powerOn => true
  | .rstnLow micros => decide (Config.resetLowTime ≤ micros)

/-- A command that can reach the part. A frame is received whole only when its closing CRC, two
bytes, has arrived (R171). -/
def Instr.wellFormed : Instr → Bool
  | .hardReset cause _ => cause.wellFormed
  | .frameReceived _ bytes => decide (2 ≤ bytes.length)
  | .initialisationComplete => true
  | .receiveTrain _ _ => true
  | .undecodableSymbol _ => true
  | .receiveHold _ => true
  | .receiveGo _ => true
  | .lossOfLock _ => true
  | .holdSentChange _ => true
  | .flowSymbolRepeat _ => true
  | .sampleFrameTaken => true
  | .fPortLeavingUpClassifier => true
  | .fwPlace _ => true
  | .slotTakeSample _ => true
  | .slotTakeGapMark _ => true
  | .slotStart _ => true
  | .ruleTakeValue _ => true
  | .ruleTakeGapMark _ => true
  | .ringTakeItem _ => true
  | .ringTakeGapMark _ => true
  | .ringFreeze _ _ => true
  | .assemblerTakeRecord _ => true
  | .reducedHoldExpiry => true
  | .eventEnqueue _ => true
  | .retransmitTimeout => true
  | .deliverySuspend => true
  | .deliveryResume => true
  | .arbiterGrant => true
  | .readoutFrameProduce => true
  | .terminatingFramePlace => true
  | .obSend => true
  | .cPortLeavingUpEgress => true
  | .cPortComingUpEgress => true
  | .fPortLeavingUpEgress => true
  | .ident => true
  | .readEntry => true
  | .writeEntry => true
  | .enable => true
  | .disable => true
  | .readStatus => true
  | .clearCounters => true
  | .setTime => true
  | .readRing => true
  | .abortRead => true
  | .releaseHalf => true
  | .flushRing => true
  | .freezeRing => true
  | .rearmRing => true
  | .startSlot => true
  | .eventAck => true
  | .eventResync => true
  | .restart => true
  | .unknownCode => true
  | .frameSendComplete _ => true
  | .requestTooShort => true

end Sys2Proof
end

