-- ==== Sys2Proof/Tests/Slice0.lean ====
section
/-! SUPPORT. Tests of single commands, with expected results from the manual's worked sequences and
tables, and for each obligation a state and operands that meet its hypotheses. -/

-- The tests are checked one after another: each one checked beside the others takes a stack of its own.
set_option Elab.async false

namespace Sys2Proof.Tests

open Sys2Proof.Machine

/-! ### States the tests begin with -/

/-- A port in UP. -/
def upPort : Port := { Port.reset with link := .up, trainCount := 8, heard := true }

/-- The part in operation: both ports UP, delivery ACTIVE, everything else as after a hard reset. -/
def up : State :=
  { State.reset with
    phase := .operating
    fPort := upPort
    cPort := upPort
    egress := { State.reset.egress with held := false }
    events := { State.reset.events with delivery := .active } }

/-- The part executing the request (tag 0, number 7) with a code and arguments. -/
def asked (code : Byte) (args : List Byte) (s : State) : State :=
  { s with management := { s.management with current := some (0 :: 7 :: code :: args) } }

/-- That request. -/
def theRequest (code : Byte) (args : List Byte) : Request := ⟨0, 7, code, args⟩

/-- The state after a command that goes on. -/
def after (o : Host.Outcome State Fault Refusal) : State :=
  match o with
  | .next s => s
  | _ => State.reset

/-- Kind, subject and count of each enqueue request in flight. -/
def asksOf (s : State) : List (EventKind × Nat × Option Nat) :=
  s.events.requests.map fun r => (r.kind, r.subject, r.count)

/-- A state with an empty cache executes the request it is asked. -/
theorem asked_executes (code : Byte) (args : List Byte) (s : State)
    (h : s.management.cache.get 0 = none) :
    Executes (asked code args s) (theRequest code args) code.toNat := by
  refine ⟨rfl, rfl, by simp [theRequest], ?_⟩
  simp only [State.cachedFor, asked, theRequest, tagPlace]
  rw [show (⟨(0 : Byte).toNat % 4, _⟩ : Fin 4) = 0 from rfl, h]

/-! ### Well-formed commands (the checks of WellFormed) -/

theorem test_short_reset_is_ill_formed :
    (Instr.hardReset (.rstnLow 9) 0).wellFormed = false := by decide

theorem test_one_byte_frame_is_ill_formed :
    (Instr.frameReceived .f [0x10]).wellFormed = false := by decide

theorem test_well_formed_commands :
    (Instr.hardReset (.rstnLow 10) 0).wellFormed = true
      ∧ (Instr.frameReceived .f [0x10, 0x00]).wellFormed = true := by decide

theorem test_no_word_spells_a_command : decodeTableWord 16 0x1234 = none := by decide

/-! ### Frames (chapter 10) -/

/-- The published check value of the CRC of section 10.1: that of "123456789" is 29B1h. -/
theorem test_crc : crc16 [0x31, 0x32, 0x33, 0x34, 0x35, 0x36, 0x37, 0x38, 0x39] = 0x29B1#16 := by
  decide +kernel

/-- Section 10.6: the record of rule 4's assert. -/
def assertRecord : EventRecord where
  serial := 300
  kind := .ruleAssert
  subject := 4
  channel := some 7
  value := some 1040
  count := some 106
  time := 2500000
  sent := .unsent

theorem test_event_frame_example :
    (eventFrame 12 [assertRecord]).take 25
      = [0x50, 0x00, 0x0C, 0x15, 0x01, 0x2C, 0x01, 0x01, 0x2C, 0x05, 0x04, 0x07, 0x03, 0x00, 0x26,
         0x25, 0xA0, 0x00, 0x00, 0x04, 0x10, 0x00, 0x00, 0x00, 0x6A]
      ∧ (eventFrame 12 [assertRecord]).length = 27 := by decide +kernel

/-- Section 10.6: a LOSS record in the same position. -/
theorem test_loss_record_example :
    ({ assertRecord with
        kind := .loss, subject := 0, channel := none, value := none, count := some 3 }
      : EventRecord).bytes
      = [0x01, 0x2C, 0x0A, 0x00, 0xFF, 0x02, 0x00, 0x26, 0x25, 0xA0, 0x00, 0x00, 0x00, 0x00, 0x00,
         0x00, 0x00, 0x03] := by decide +kernel

/-! ### The classifier (section 1.8) -/

/-- Channels 7 and 8 of section 1.8, the part's own node id 12, unknown channels dropped. -/
def twoChannels : State :=
  ((({ up with management := { up.management with
      global := { up.management.global with nodeId := 12, unknownPolicy := .drop } } }).setChannel 7
    { Channel.reset with enabled := true, node := 5, input := 2 }).setChannel 8
    { Channel.reset with
      enabled := true, node := 5, input := 3, format := .unsigned, policy := .thin, divisor := 3 })

/-- Frame A of section 1.8. -/
def frameA : SampleFrame := ⟨0x10, 0, 5, 100, [⟨2, 16777200⟩, ⟨3, 5000⟩, ⟨4, 77⟩]⟩

/-- A state in which the classifier is about to take a frame. -/
def handed (f : SampleFrame) (s : State) : State :=
  { s with classifier := { s.classifier with inbox := [.frame f.rebuild] } }

theorem test_frame_a :
    (fun t : State => (t.classifier.nodes.get 4, (t.channel 7).lastValue, (t.channel 8).lastValue,
        t.egress.candidates))
      (after (exec .sampleFrameTaken (handed frameA twoChannels)))
      = (⟨.tracking, 101, 1, 0, 0, 0⟩, some (-16), some 5000,
          [{ frameA with entries := [⟨2, 16777200⟩, ⟨3, 5000⟩] }]) := by decide +kernel

/-- Frame C of section 1.8: a gap of 2 frames. -/
def frameC : SampleFrame := ⟨0x10, 0, 5, 104, [⟨3, 5030⟩, ⟨2, 4⟩]⟩

/-- The state of section 1.8 after frame B. -/
def afterFrameB : State :=
  (twoChannels.setNode 4 ⟨.tracking, 102, 2, 0, 0, 0⟩).setChannel 8
    { twoChannels.channel 8 with sampleIndex := 3, lastValue := some 5020 }

/-- The state of section 1.8 after frame C. -/
def afterFrameC : State := after (exec .sampleFrameTaken (handed frameC afterFrameB))

theorem test_frame_c :
    afterFrameC.classifier.nodes.get 4 = ⟨.tracking, 105, 3, 1, 2, 0⟩
      ∧ ((afterFrameC.channel 7).gapMarks, (afterFrameC.channel 8).sampleIndex) = (1, 4)
      ∧ asksOf afterFrameC = [(.gap, 5, some 2)] ∧ afterFrameC.egress.candidates = [frameC] := by
  decide +kernel

/-! ### Slots (section 2.9) -/

/-- A slot in ACCUM on channel 8, with three of its four samples taken. -/
def lastOfFour (mode : SlotMode) (trigger : SlotTrigger) (w : Window) (item : StreamItem) : Slot :=
  { Slot.reset with
    enabled := true, channel := 8, mode := mode, trigger := trigger, toEgress := true
    notifyBroken := true, state := .accum, count := 3, window := some w, inbox := [item] }

theorem test_three_modes :
    (fun m => (after (exec (.slotTakeSample 2) (up.setSlot 2
        (lastOfFour m .continuous ⟨-6, 5, -8, 40⟩ (.sample 1 43))))).egress.records.map (·.data))
      <$> [.mean, .enhance, .peak]
      = [[.value (-2)], [.value (-3)], [.peak 5 (-8)]] := by decide +kernel

/-- Slot 2 of section 2.9 after the gap mark of frame C. -/
def afterMark : State :=
  after (exec (.slotTakeGapMark 2) (up.setSlot 2
    (lastOfFour .mean .continuous ⟨15030, 5020, 5000, 0⟩ .mark)))

theorem test_gap_mark_breaks_window :
    ((afterMark.slots.get 2).count, (afterMark.slots.get 2).brokenWindows) = (0, 1)
      ∧ asksOf afterMark = [(.slotBroken, 2, some 3)] := by decide +kernel

/-! ### Rules (section 3.11) -/

/-- Rule 4 of section 3.11, in a state with a count, about to take a value. -/
def ruleFour (state : RuleState) (count : Nat) (previous : Int) (item : StreamItem) : Rule :=
  { Rule.reset with
    enabled := true, sourceIndex := 7, high := 1000, hyst := 50, persistence := 3
    eventOnRelease := true, state := state, runCount := count, previous := some previous
    inbox := [item] }

/-- Rule 4 of section 3.11 after index 106. -/
def afterAssert : State :=
  after (exec (.ruleTakeValue 4) (up.setRule 4 (ruleFour .pending 2 1030 (.sample 1040 106))))

theorem test_rule_asserts :
    ((afterAssert.rules.get 4).state, (afterAssert.rules.get 4).asserts) = (.active, 1)
      ∧ asksOf afterAssert = [(.ruleAssert, 4, some 106)]
      ∧ afterAssert.events.requests.map (·.value) = [some 1040] := by decide +kernel

theorem test_rule_hysteresis :
    (fun v => (after (exec (.ruleTakeValue 4) (up.setRule 4
        (ruleFour .active 0 1040 (.sample v 107))))).rules.get 4 |>.state) <$> [960, 950, 949]
      = [.active, .leaving, .leaving] := by decide +kernel

/-! ### Rings (section 4.7) and readouts (section 5.7) -/

/-- Ring 0 of section 4.7, filling half A with some words in it. -/
def ringZero (fill : Nat) (item : StreamItem) : Ring :=
  { Ring.reset with
    enabled := true, length := 128, sourceIndex := 7, notify := true
    stream := ⟨.filling .a, ⟨.filling, fill, false, false⟩, ⟨.empty, 0, false, false⟩, false⟩
    inbox := [item] }

/-- Ring 0 of section 4.7 after the 64th sample. -/
def afterFill : State :=
  after (exec (.ringTakeItem 0) (up.setRing 0 (ringZero 63 (.sample (-9) 63))))

theorem test_half_fills :
    (afterFill.rings.get 0).stream
        = ⟨.filling .b, ⟨.full, 64, false, false⟩, ⟨.filling, 0, false, false⟩, false⟩
      ∧ afterFill.memory.read 63 = -9 ∧ asksOf afterFill = [(.halfFull, 0, some 64)] := by
  decide +kernel

/-- Ring 0 of section 5.7 with half A FULL, and the engine's next id 16. -/
def halfAFull : State :=
  { up with readout := { up.readout with nextId := 16 } }.setRing 0
    { ringZero 0 .mark with
      inbox := []
      stream := ⟨.filling .b, ⟨.full, 64, false, false⟩, ⟨.filling, 0, false, false⟩, false⟩ }

/-- Offset, number of words and LAST of each READOUT frame in DT. -/
def framesOf (s : State) : List (Nat × Nat × Bool) :=
  (readoutFrames s.egress.dt).map fun f => (f.offset, f.words.length, f.last)

theorem test_read_ring :
    (fun t : State => ((t.rings.get 0).stream.halfA.state, framesOf t,
        t.egress.mr.map fun x => (x.reply.status, x.reply.results)))
      (after (exec .readRing (asked 0x09 [0, 0] halfAFull)))
      = (.reading, [(0, 48, false), (48, 16, true)], [(.accepted, [16, 0, 0, 0, 64])]) := by
  decide +kernel

/-- Ring 4 of section 5.7, FROZEN with valid length 128 and end position 84. -/
def frozenRing : Ring :=
  { Ring.reset with
    enabled := true, base := 2048, length := 128, mode := .snapshot, postCount := 40
    snapshot := ⟨.frozen, 84, 128, 0, false, none, some ⟨.rule 9, 0, 0, 128, 84⟩⟩ }

theorem test_read_snapshot :
    (fun t : State => (framesOf t, match t.readout.engine with
        | .sending x => x.start
        | _ => 0))
      (after (exec .readRing (asked 0x09 [4, 2] (up.setRing 4 frozenRing))))
      = ([(0, 48, false), (48, 48, false), (96, 32, true)], 84) := by decide +kernel

/-! ### The event unit (section 6.10) -/

/-- Records of consecutive serials. -/
def records (first n : Nat) (x : SendState) : List EventRecord :=
  (List.range n).map fun j => { assertRecord with serial := first + j, sent := x }

/-- A state whose event queue holds some records. -/
def queued (rs : List EventRecord) (next : Nat) (timer : Timer) : State :=
  { up with events := { up.events with queue := rs, serial := next, timer := timer } }

theorem test_event_window :
    (after (exec .arbiterGrant (queued (records 40 8 .sent ++ records 48 2 .unsent) 50
      (.running 5)))).cPort.sending = none
    ∧ (fun t : State => (sentCount t.events.queue, t.events.timer))
        (after (exec .arbiterGrant (queued (records 40 10 .unsent) 50 .stopped)))
      = (4, .running 20000) := by decide +kernel

theorem test_event_ack :
    (fun t : State => (t.events.queue.map (·.serial), t.events.timer,
        t.egress.mr.map fun x => (x.reply.status, x.reply.results)))
      (after (exec .eventAck (asked 0x10 [0, 43]
        (queued (records 40 8 .sent ++ records 48 2 .unsent) 50 (.running 5)))))
      = ([44, 45, 46, 47, 48, 49], .running 20000, [(.ok, [4])]) := by decide +kernel

/-! ### The arbiter (section 8.8) and the ports (section 9.7) -/

/-- Frames of some bytes, told apart by one. -/
def frames (n : Nat) : List (List Byte) := (List.range n).map fun j => [byteOf (j + 1)]

/-- The state of section 8.8 with some frames in FW and DT and a streak. -/
def busy (fw dt streak : Nat) : State :=
  { up with
    management := { up.management with global := { up.management.global with dtStreak := 2 } }
    egress := { up.egress with
      fw := frames fw, dt := List.replicate dt (.reduced []), streak := streak } }

theorem test_grants_under_a_busy_field :
    (fun s : State => (fun t : State => (t.egress.fw.length, t.egress.dt.length, t.egress.streak))
        (after (exec .arbiterGrant s))) <$> [busy 5 3 0, busy 4 3 1, busy 3 3 2, busy 0 1 1]
      = [(4, 3, 1), (3, 3, 2), (3, 2, 0), (0, 0, 0)] := by decide +kernel

/-- A port in TRAINING with a train count. -/
def training (n : Nat) (s : State) : State :=
  s.setPort .c { Port.reset with link := .training, trainCount := n, heard := decide (n = 8) }

theorem test_eighth_train_symbol :
    (fun t : State => (t.cPort.link, t.cPort.trainCount, t.cPort.heard))
      (after (exec (.receiveTrain .c false) (training 7 up)))
      = (.training, 8, true) := by decide +kernel

theorem test_entering_up :
    (fun t : State => (t.cPort.link, t.cPort.line, t.events.requests.map (·.subject)))
      (after (exec (.receiveTrain .c true) (training 8 up)))
      = (.up, [.symbol .go], [3]) := by decide +kernel

/-! ### Requests (sections 6.10 and 7.10) -/

/-- WRITE_ENTRY arguments for ring 0 by a mask: base 256, policy OVERWRITE, post count 200, notify on. -/
def writeRing (mask : Byte) : List Byte :=
  [5, 0, 0, 0, 0, mask, 0, 1, 0, 0, 0, 0, 0, 0, 0, 0, 1, 0, 0, 0, 200, 1] ++ List.replicate 52 0

/-- The statuses of the replies waiting in MR. -/
def statusesIn (s : State) : List Status := s.egress.mr.map (·.reply.status)

theorem test_write_is_all_or_nothing :
    (fun m => (fun t : State => (statusesIn t, (t.rings.get 0).overflow))
        (after (exec .writeEntry (asked 0x03 (writeRing m) (up.setRing 0 (ringZero 0 .mark))))))
      <$> [0x60, 0x21, 0xA0]
      = [([.badValue], .stall), ([.liveField], .stall), ([.ok], .overwrite)] := by decide +kernel

theorem test_write_of_node_and_global :
    statusesIn (after (exec .writeEntry (asked 0x03 ([2, 5, 0, 0, 0, 1] ++ List.replicate 19 0) up)))
        = [.badTable]
      ∧ statusesIn (after (exec .writeEntry (asked 0x03 ([6, 0, 0, 0, 0, 1] ++ List.replicate 7 9) up)))
        = [.badValue]
      ∧ statusesIn (after (exec .enable (asked 0x04 [6, 0] up))) = [.badTable] := by decide +kernel

/-- Section 4.7 step 7: half A is released while the writer awaits it with a mark held. -/
theorem test_release_starts_filling :
    (fun t : State => ((t.rings.get 0).stream.writer, (t.rings.get 0).stream.halfA, statusesIn t))
      (after (exec .releaseHalf (asked 0x0B [0, 0] (up.setRing 0 { ringZero 0 .mark with
        stream := ⟨.stalled .a, ⟨.full, 64, false, true⟩, ⟨.full, 64, true, false⟩, true⟩ }))))
      = (.filling .a, ⟨.filling, 0, true, false⟩, [.ok]) := by decide +kernel

/-- Section 4.7 step 10: a flush finds the other half READING, and the writer stalls. -/
theorem test_flush_stalls :
    (fun t : State => ((t.rings.get 0).stream.writer, (t.rings.get 0).stream.halfA, asksOf t))
      (after (exec .flushRing (asked 0x0C [0] (up.setRing 0 { ringZero 0 .mark with
        stream := ⟨.filling .a, ⟨.filling, 10, true, false⟩, ⟨.reading, 64, true, false⟩, false⟩ }))))
      = (.stalled .b, ⟨.full, 10, true, false⟩, [(.halfFull, 0, some 10)]) := by decide +kernel

/-- Section 6.10: the third expiry with a retry limit of 2. -/
theorem test_retries_run_out :
    (fun t : State => (t.events.delivery, t.events.retry, sentCount t.events.queue, t.events.timer))
      (after (exec .retransmitTimeout
        { queued (records 100 3 .sent) 103 (.running 0) with
          events := { (queued (records 100 3 .sent) 103 (.running 0)).events with retry := 2 }
          management := { up.management with
            global := { up.management.global with retryLimit := 2 } } }))
      = (.failed, 3, 3, .stopped) := by decide +kernel

/-- R143: SET_TIME, most significant byte first (chapter 10). -/
theorem test_set_time :
    (after (exec .setTime (asked 0x08 [0x00, 0x26, 0x25, 0xA0] up))).timebase = 2500000 := by
  decide +kernel

/-- R170: HOLD at 24 frames in FW, GO at 8. -/
theorem test_hold_thresholds :
    (fun o => (after (exec (.holdSentChange .f)
        (up.setPort .f { upPort with occupancy := [o], holdSent := decide (o = .removed 8) }))).fPort.line)
      <$> [.joined 23, .joined 24, .removed 9, .removed 8]
      = [[], [.symbol .hold], [], [.symbol .go]] := by decide +kernel

/-! ### Witnesses: the machine and its invariants -/

theorem witness_StepRunsFrontCommand :
    ({ up with pending := [.obSend, .arbiterGrant] } : State).pending = .obSend :: [.arbiterGrant] := rfl

theorem witness_IdleStepPassesOneMicrosecond : up.pending = [] := rfl

/-- A part in use: two channels, a slot, a rule and a ring enabled, and an event record SENT. -/
def inUse : State :=
  { ((({ twoChannels with
        events := { up.events with
          queue := records 40 1 .sent ++ records 41 1 .unsent, serial := 42, timer := .running 5 }
        pending := [.ringTakeItem 0] }.setSlot 2
      (lastOfFour .mean .continuous ⟨6, 3, 1, 0⟩ (.sample 1 3))).setRule 4
      (ruleFour .pending 2 1030 (.sample 1040 106))).setRing 0 (ringZero 63 (.sample (-9) 63))) with
    phase := .operating }

/-- An outcome in which the part goes on has a next state. -/
theorem next_of_runsOn {o : Host.Outcome State Fault Refusal} (h : runsOn o = true) :
    ∃ t, o = .next t := by
  cases o with
  | next t => exact ⟨t, rfl⟩
  | fault _ => cases h
  | refused _ => cases h

/-- The command that waits in `inUse` has a next state. -/
theorem inUse_steps : ∃ t, step inUse = .next t := next_of_runsOn (by decide +kernel)

/-- What holds of an entry and of the default holds of every entry of a table with that one entry. -/
theorem every_entry {α : Type} {n : Nat} {d x : α} {i : Fin n} {P : α → Prop} (hd : P d) (hx : P x)
    (k : Fin n) : P (((Table.replicate n d).set i x).get k) := by
  rw [Table.get_set]
  split
  · exact hx
  · rw [Table.get_replicate]; exact hd

theorem witness_CaptureMemoryStaysCanonical :
    inUse.memory.wf = true ∧ ∃ t, step inUse = .next t := ⟨by decide +kernel, inUse_steps⟩

theorem witness_TableLinksStaySound :
    (KeysDistinct inUse ∧ SourcesEnabled inUse ∧ RulesConsistent inUse ∧ RangesDisjoint inUse)
      ∧ ∃ t, step inUse = .next t := by
  refine ⟨⟨?_, ⟨?_, ?_, ?_⟩, ?_, ?_⟩, inUse_steps⟩
  · unfold KeysDistinct; decide +kernel
  · decide +kernel
  · decide +kernel
  · decide +kernel
  · unfold RulesConsistent; decide +kernel
  · unfold RangesDisjoint; decide +kernel

theorem witness_SlotsAndRulesStaySound :
    (SlotsSound inUse ∧ RulesSound inUse) ∧ ∃ t, step inUse = .next t := by
  refine ⟨⟨fun k => ?_, fun k => ?_⟩, inUse_steps⟩
  · exact every_entry (d := Slot.reset) (P := Slot.Sound) (by unfold Slot.Sound; decide)
      (by unfold Slot.Sound; decide) k
  · exact every_entry (d := Rule.reset) (P := Rule.Sound) (by unfold Rule.Sound; decide)
      (by unfold Rule.Sound; decide) k

/-- The rings of `inUse` are sound, and so is what fills them. -/
theorem inUse_rings : (RingsSound inUse ∧ RangesSound inUse) ∧ FillsSound inUse ∧ ReadoutInRange inUse := by
  refine ⟨⟨⟨fun k => ?_, fun k part => ?_⟩, ?_⟩, fun k => ?_, fun x r hx => by cases hx⟩
  · exact every_entry (d := Ring.reset) (P := Ring.Sound)
      (by simp [Ring.Sound, Ring.reset]) (by
        simp [Ring.Sound, ringZero, Ring.reset, StreamState.Sound, StreamState.half, HalfId.other]) k
  · refine iff_of_false ?_ (by rintro ⟨x, hx, _⟩; cases hx)
    exact every_entry (d := Ring.reset) (P := fun r => ¬ partReading r part = true)
      (by cases part <;> decide) (by cases part <;> decide) k
  · intro k
    exact every_entry (d := Ring.reset) (P := fun r =>
        r.base + r.length ≤ Config.captureWords ∧ r.length % 64 = 0
        ∧ (r.length = 0 ∨ 128 ≤ r.length) ∧ (r.enabled = true → r.length ≠ 0)
        ∧ r.postCount ≤ r.length ∧ SnapshotState.InRange r.snapshot r.length)
      (by simp [Ring.reset, SnapshotState.reset, SnapshotState.InRange])
      (by simp [ringZero, Ring.reset, SnapshotState.reset, SnapshotState.InRange,
            Config.captureWords]) k
  · exact every_entry (d := Ring.reset) (P := fun r =>
        (r.enabled = true ∨ SourceOn inUse r.sourceKind r.sourceIndex →
          ∀ item ∈ r.inbox, item.words.length = 0 ∨ item.words.length = itemWidth inUse r)
        ∧ (r.enabled = true → r.mode = .stream → ∀ h : HalfId, ∀ x, x = r.stream.half h →
          x.fill ≤ r.length / 2 ∧ x.fill % itemWidth inUse r = 0
          ∧ (x.state = .filling → x.fill < r.length / 2)
          ∧ (x.state = .full ∨ x.state = .reading → x.fill ≠ 0)))
      ⟨(fun _ _ h => by cases h), (fun h => by cases h)⟩
      ⟨fun _ => by decide +kernel, fun _ _ h x hx => by
        subst hx; cases h <;> decide +kernel⟩ k

theorem witness_RingsStaySound :
    (RingsSound inUse ∧ RangesSound inUse) ∧ ∃ t, step inUse = .next t := ⟨inUse_rings.1, inUse_steps⟩

theorem witness_FillsAndReadoutsStayInRange :
    (SourcesEnabled inUse ∧ RingsSound inUse ∧ RangesSound inUse)
      ∧ (FillsSound inUse ∧ ReadoutInRange inUse) ∧ ∃ t, step inUse = .next t :=
  ⟨⟨witness_TableLinksStaySound.1.2.1, inUse_rings.1⟩, inUse_rings.2, inUse_steps⟩

theorem witness_SoundStatesRunOn :
    RingsSound inUse ∧ RangesSound inUse ∧ FillsSound inUse ∧ ReadoutInRange inUse :=
  ⟨inUse_rings.1.1, inUse_rings.1.2, inUse_rings.2⟩

theorem witness_EventUnitStaysSound :
    (QueueInOrder inUse ∧ DeliverySound inUse ∧ InitialisingAtReset inUse)
      ∧ ∃ t, step inUse = .next t := by
  refine ⟨⟨⟨by decide, ⟨40, by decide, rfl, rfl, rfl⟩, ?_⟩, ⟨?_, ?_⟩, fun h => by cases h⟩, inUse_steps⟩
  · exact ⟨fun h => (nomatch h), fun _ _ hx => (nomatch hx), trivial⟩
  · decide +kernel
  · intro h; cases h

theorem witness_QueuesStaySound :
    (QueuesBounded inUse ∧ HeldEmpty inUse ∧ EventsTookTheLink inUse ∧ HoldTimerSound inUse
        ∧ GlobalInRange inUse ∧ CountsBounded inUse ∧ SharesSound inUse)
      ∧ ∃ t, step inUse = .next t := by
  refine ⟨⟨?_, ?_, fun _ _ => rfl, ?_, ?_, ?_, by decide, fun h => absurd rfl h⟩, inUse_steps⟩
  · unfold QueuesBounded; decide +kernel
  · intro h; cases h
  · unfold HoldTimerSound; decide +kernel
  · unfold GlobalInRange; decide +kernel
  · unfold CountsBounded; decide +kernel

/-- Ring 0 of section 5.7 after frame 1 has been granted: the LAST frame stands in DT. -/
def lastWaits : State :=
  { halfAFull.setRing 0 { halfAFull.rings.get 0 with
      stream := ⟨.filling .b, ⟨.reading, 64, false, false⟩, ⟨.filling, 0, false, false⟩, false⟩ } with
    readout := ⟨.sending ⟨16, 0, .halfA, 64, 0, false, 64, 48, 1, true⟩, 17, 0, 0⟩
    events := { up.events with delivery := .failed }
    egress := { up.egress with
      dt := [.readout ⟨16, 0, .halfA, 48, List.replicate 16 0, false, true, false⟩] }
    pending := [.arbiterGrant] }

theorem witness_ReadoutStaysSound : ReadoutSound lastWaits ∧ ∃ t, step lastWaits = .next t := by
  refine ⟨⟨⟨⟨rfl, rfl, rfl, rfl, rfl, ?_, fun _ => rfl⟩, rfl⟩, rfl, ?_⟩, next_of_runsOn (by decide +kernel)⟩
  · decide
  · decide

/-- The parts of a readout in progress (R94): half A from its first offset on, and a snapshot of V = L = 128
from its end position 84 on. -/
theorem witness_ReadoutInRange :
    ReadoutInRange lastWaits
      ∧ ReadoutInRange { up.setRing 4 { frozenRing with
            snapshot := { frozenRing.snapshot with state := .reading } } with
          readout := ⟨.sending ⟨16, 4, .snapshot, 128, 84, false, 0, 0, 0, false⟩, 17, 0, 0⟩ } := by
  constructor <;> (rintro x r hx rfl; cases hx)
  · refine ⟨by decide +kernel, fun h hh => ?_, nofun⟩
    cases h with
    | a => decide +kernel
    | b => cases hh
  · exact ⟨by decide +kernel, nofun, fun _ => ⟨⟨.rule 9, 0, 0, 128, 84⟩, by decide +kernel⟩⟩

theorem witness_PortsStaySound : PortsSound inUse ∧ ∃ t, step inUse = .next t := by
  refine ⟨⟨?_, ?_, ?_, ?_⟩, inUse_steps⟩ <;> (try unfold Port.Sound) <;> decide

theorem inUse_widths : WidthsKept inUse := by
  refine ⟨by decide, fun p => by cases p <;> decide, ?_, by decide, ?_, fun k => ?_, fun k => ?_,
    fun k => ?_, by decide, by decide, by decide, by decide⟩
  · decide +kernel
  · decide +kernel
  · exact every_entry (d := Slot.reset) (P := fun x => MarkFits x.outputIndex
      ∧ CountFits x.brokenWindows ∧ x.exponent ≤ 8) (by decide) (by decide) k
  · exact every_entry (d := Rule.reset) (P := fun x => CountFits x.asserts
      ∧ ∀ t, x.lastAssert = some t → MarkFits t) ⟨by decide, fun _ h => by cases h⟩
      ⟨by decide, fun _ h => by cases h⟩ k
  · exact every_entry (d := Ring.reset) (P := fun x => CountFits x.dropped ∧ CountFits x.lost)
      (by decide) (by decide) k

theorem inUse_items : ItemsFit inUse := by
  have none_of_nil : ∀ {α : Type} {P : α → Prop} {l : List α}, l = [] → ∀ x ∈ l, P x := by
    rintro α P l rfl x hx; cases hx
  have hc : ∀ c, (inUse.channel c).lastValue = none := by decide +kernel
  have hx : ∀ tag, inUse.management.cache.get tag = none := by decide
  refine ⟨fun c v h => ?_, fun k => ?_, fun k => ?_, fun k => ?_, none_of_nil rfl, trivial,
    none_of_nil rfl, ?_, none_of_nil rfl, none_of_nil rfl, none_of_nil rfl, fun _ h => ?_, fun _ h => ?_,
    none_of_nil rfl, fun tag x h => ?_⟩
  · rw [hc c] at h; cases h
  · exact every_entry (d := Slot.reset) (P := fun x => (∀ item ∈ x.inbox, ItemFits item)
        ∧ ∀ w, x.window = some w → WindowFits x.count w) (by simp [Slot.reset])
      (by simp [lastOfFour, ItemFits, WindowFits, CodeValue]) k
  · exact every_entry (d := Rule.reset) (P := fun x => (∀ item ∈ x.inbox, ItemFits item)
        ∧ WordFits x.low ∧ WordFits x.high ∧ x.hyst ≤ 2147483647
        ∧ ∀ v, x.previous = some v → WordFits v) (by simp [Rule.reset, WordFits])
      (by simp [ruleFour, Rule.reset, ItemFits, CodeValue, WordFits]) k
  · exact every_entry (d := Ring.reset) (P := fun x => (∀ item ∈ x.inbox, ItemFits item)
        ∧ (∀ p, x.snapshot.pending = some p → MarkFits p.time)
        ∧ ∀ c, x.snapshot.record = some c → MarkFits c.triggerTime ∧ MarkFits c.freezeTime)
      (by simp [Ring.reset, SnapshotState.reset]) (by
        simp [ringZero, Ring.reset, SnapshotState.reset, ItemFits, CodeValue]) k
  · rw [show inUse.events.queue = records 40 1 .sent ++ records 41 1 .unsent from rfl]
    simp [records, EventFits, WordFits, assertRecord, List.range_succ]
  · cases h
  · cases h
  · rw [hx tag] at h; cases h

theorem witness_WidthsAreKept :
    (GlobalInRange inUse ∧ QueuesBounded inUse ∧ DeliverySound inUse ∧ SlotsSound inUse
        ∧ RingsSound inUse ∧ RangesSound inUse ∧ FillsSound inUse ∧ ReadoutInRange inUse
        ∧ ReadoutSound inUse)
      ∧ (WidthsKept inUse ∧ ItemsFit inUse) ∧ ∃ t, step inUse = .next t :=
  ⟨⟨witness_QueuesStaySound.1.2.2.2.2.1, witness_QueuesStaySound.1.1, witness_EventUnitStaysSound.1.2.1,
    witness_SlotsAndRulesStaySound.1.1, inUse_rings.1.1, inUse_rings.1.2, inUse_rings.2.1,
    inUse_rings.2.2, rfl⟩, ⟨inUse_widths, inUse_items⟩, inUse_steps⟩

/-! ### Witnesses: ports and frames -/

theorem witness_HardResetAndInitialisation :
    (ResetCause.rstnLow 10 = .powerOn ∨ ∃ micros, ResetCause.rstnLow 10 = .rstnLow micros ∧ 10 ≤ micros)
      ∧ 9 < 10 ∧ State.reset.phase = .initialising :=
  ⟨.inr ⟨10, rfl, by decide⟩, by decide, rfl⟩

theorem witness_TrainingAndEnteringUp :
    (((training 6 up).port .c).link = .training ∧ ((training 6 up).port .c).trainCount + 1 < 8)
      ∧ (State.reset.port .c).link = .down
      ∧ (((training 7 up).port .c).link = .training ∧ 7 ≤ ((training 7 up).port .c).trainCount)
      ∧ (((training 8 up).port .c).link = .training ∧ ((training 8 up).port .c).trainCount = 8) := by
  decide +kernel

theorem witness_LeavingUpRetrains :
    (up.port .f).link = .up ∧ (up.port .c).link = .up := by decide

/-- A port in UP that is paused and sends a frame. -/
def pausedPort : Port := { upPort with paused := true, sending := some [0x20] }

theorem witness_FlowSymbolsPauseTransmitter :
    ((up.setPort .f pausedPort).port .f).link = .up ∧ (up.port .f).paused = false
      ∧ (up.setPort .f pausedPort).fPort.paused = true
      ∧ (up.setPort .c pausedPort).cPort.paused = true
      ∧ ((up.setPort .f pausedPort).port .f).sending = some [0x20]
      ∧ ((training 7 up).port .c).link = .training ∧ ((training 7 up).port .c).trainCount < 8 := by
  decide +kernel

theorem witness_HoldSentFollowsOccupancy :
    ((up.setPort .f { upPort with occupancy := [.joined 24] }).port .f).occupancy = [.joined 24]
      ∧ 24 ≤ 24
      ∧ ((up.setPort .c { upPort with occupancy := [.joined 7], holdSent := true }).port .c).holdSent
          = true
      ∧ ((up.setPort .c { upPort with occupancy := [.removed 2] }).port .c).occupancy = [.removed 2]
      ∧ ((up.setPort .c { upPort with flowElapsed := 1000 }).port .c).link = .up := by decide +kernel

/-- The two bytes of the CRC of some bytes. -/
def crcOf (body : List Byte) : Byte × Byte :=
  ((crc16 body).extractLsb' 8 8, (crc16 body).extractLsb' 0 8)

theorem witness_ReceivedFramesAreChecked :
    (up.port .f).link = .up ∧ crc16 [0x20, 0, 5, 0] ≠ 0#8 ++ 0#8
      ∧ (∀ body ∈ [[0x20, 0, 5], [0x20, 0, 5, 253], [0x20, 0, 5, 1], [0x00, 0, 5, 0], [0x90, 0, 5, 0],
          [0x20, 0, 5, 0]], crc16 body = (crcOf body).1 ++ (crcOf body).2)
      ∧ 252 < byteAt [0x20, 0, 5, 253] 3 ∧ byteAt [0x20, 0, 5, 1] 3 ≠ [(0x20 : Byte), 0, 5, 1].length - 4
      ∧ byteAt [0x00, 0, 5, 0] 0 / 16 = 0 ∧ 8 < byteAt [0x90, 0, 5, 0] 0 / 16
      ∧ (byteAt [0x20, 0, 5, 0] 3 = 0 ∧ byteAt [0x20, 0, 5, 0] 0 / 16 = 2) := by decide +kernel

/-- A frame of a kind, for node 12 and from node 0. -/
def frameFor (kind dest : Nat) (payload : List Byte) : List Byte :=
  withCrc ([byteOf (kind * 16), byteOf dest, 0, byteOf payload.length] ++ payload)

/-- A state that executes one request while others wait. -/
def waiting (n : Nat) : State :=
  { up with management := { up.management with
      current := some [0, 7, 6], waiting := List.replicate n [1, 7, 6] } }

theorem witness_AcceptedFramesAreHandedOn :
    (∀ kind ∈ [1, 2], Accepted (frameFor kind 0 [0, 1, 2]) ∧ frameKind (frameFor kind 0 [0, 1, 2]) = kind)
      ∧ (Accepted (frameFor 3 1 [0, 1, 1]) ∧ frameDest (frameFor 3 1 [0, 1, 1]) = up.ownNode)
      ∧ (Accepted (frameFor 3 31 [0, 1, 1]) ∧ frameDest (frameFor 3 31 [0, 1, 1]) = 31
        ∧ byteAt (framePayload (frameFor 3 31 [0, 1, 1])) 2 = 1)
      ∧ up.management.current = none ∧ (waiting 3).management.waiting.length = 3
      ∧ (waiting 4).management.waiting.length = 4 ∧ up.fPort.link = .up ∧ (waiting 4).cPort.link = .up := by
  unfold Accepted
  decide +kernel

/-- A state with frames in FW and OB, and a frame of another kind on its way to FW beside candidates. -/
def offered (held : Bool) (fw : Nat) (candidates : List SampleFrame) : State :=
  { up with egress := { up.egress with
      held := held, fw := frames fw, ob := frames 8, candidates := candidates, others := [[0x20]]
      fLosses := if held then 1 else 0 } }

/-- R150: a frame of another kind waits behind a candidate that has been handed on. -/
theorem test_other_frame_stands_behind_candidate :
    (fun cs => (after (exec (.fwPlace .other) (offered false 0 cs))).egress.fw) <$> [[frameA], []]
      = [[], [[0x20]]] := by decide +kernel

theorem witness_FramesEnterAndLeaveTheQueues :
    ((offered false 0 []).fPort.link = .up ∧ (offered false 0 []).fPort.sending = none
        ∧ (offered false 0 []).fPort.paused = false ∧ (offered false 0 []).egress.fLosses = 0
        ∧ (offered false 0 []).egress.ob = [1] :: (frames 8).tail)
      ∧ (offered true 0 []).egress.fLosses = 1
      ∧ (offered true 0 [frameA]).egress.candidates = [frameA]
      ∧ ((offered true 0 []).egress.candidates = [] ∧ (offered true 0 []).egress.others = [[0x20]])
      ∧ (offered true 0 []).egress.held = true ∧ (offered false 31 []).egress.fw.length < 32
      ∧ 32 ≤ (offered false 32 []).egress.fw.length := by decide +kernel

/-! ### Witnesses: the classifier -/

theorem witness_NodeTrackingFollowsTheSequence :
    (¬ frameSource ({ frameA with source := 31 } : SampleFrame).rebuild ≤ 30
        ∧ frameSource ({ frameA with source := 12 } : SampleFrame).rebuild = twoChannels.ownNode
        ∧ byteAt (framePayload ({ frameA with entries := [] } : SampleFrame).rebuild) 2 = 0)
      ∧ PassesCheck (handed frameA twoChannels) frameA.rebuild frameA 4
      ∧ ¬ IsStaleFrame ((handed frameA twoChannels).classifier.nodes.get 4) 100
      ∧ PassesCheck (handed frameC afterFrameB) frameC.rebuild frameC 4
      ∧ RevealsGap ((handed frameC afterFrameB).classifier.nodes.get 4) 104
      ∧ ¬ IsStaleFrame ((handed frameC afterFrameB).classifier.nodes.get 4) 104
      ∧ PassesCheck (handed frameC afterFrameC) frameC.rebuild frameC 4
      ∧ IsStaleFrame ((handed frameC afterFrameC).classifier.nodes.get 4) 104 := by
  unfold PassesCheck IsStaleFrame RevealsGap
  decide +kernel

theorem witness_SamplesAreNumberedAndOffered :
    (handed frameC afterFrameB).classifier.inbox = [.frame frameC.rebuild]
      ∧ (∀ c, ((handed frameC afterFrameB).channel c).sampleIndex < 4294967296)
      ∧ ∃ marked : Fin 64 → Bool, ∀ c, marked c = true ↔
        RevealsGap ((handed frameC afterFrameB).classifier.nodes.get 4) frameC.seq
          ∧ ((handed frameC afterFrameB).channel c).enabled = true
          ∧ ((handed frameC afterFrameB).channel c).node = (4 : Fin 30).val + 1 := by
  refine ⟨rfl, by decide +kernel, ?_⟩
  classical exact ⟨fun c => decide _, fun c => decide_eq_true_iff⟩

theorem witness_KeptEntriesMakeTheForwardCandidate :
    PassesCheck (handed frameA twoChannels) frameA.rebuild frameA 4
      ∧ ¬ IsStaleFrame ((handed frameA twoChannels).classifier.nodes.get 4) frameA.seq
      ∧ ∀ c, ((handed frameA twoChannels).channel c).sampleIndex < 4294967296 := by
  unfold PassesCheck IsStaleFrame
  decide +kernel

/-- Section 1.1: the codes at the two ends of the signed range. -/
theorem test_sample_values :
    [8388607, 8388608, 16777215].map (sampleValue .signed) = [8388607, -8388608, -1]
      ∧ sampleValue .unsigned 16777215 = 16777215 := by decide

/-- Slot 3, not enabled, which names channel 7, with a sample of that channel in flight to it. -/
def meeting : State :=
  twoChannels.setSlot 3 { Slot.reset with channel := 7, inbox := [.sample 5 8] }

/-- R25: a sample in flight to a slot when it is enabled still reaches it. -/
theorem test_enable_meets_frame :
    (fun t : State => ((t.slots.get 3).state, (t.slots.get 3).inbox))
      (after (exec .enable (asked 0x04 [3, 3] meeting))) = (.accum, [.sample 5 8]) := by decide +kernel

/-- R25: what an earlier frame offered has passed by a slot that is not enabled, and the next frame's
sample is in flight to it. -/
theorem test_earlier_frame_passes_by :
    ((after (exec .sampleFrameTaken (handed frameA meeting))).slots.get 3).inbox
      = [.sample (-16) 0] := by decide +kernel

theorem witness_FieldLossMarksEveryChannel :
    ({ twoChannels with classifier := { twoChannels.classifier with inbox := [.portLeftUp] } }
      : State).classifier.inbox = [.portLeftUp] := rfl

theorem witness_SampleFramesRoundTrip :
    (crcGood frameA.rebuild = true ∧ lengthGood frameA.rebuild = true
        ∧ readSampleFrame frameA.rebuild = some frameA)
      ∧ frameA.seq < 65536 ∧ 1 ≤ frameA.entries.length ∧ frameA.entries.length ≤ 32
      ∧ ∀ e ∈ frameA.entries, e.input < 256 ∧ e.code < 16777216 := by decide +kernel

/-! ### Witnesses: slots and rules -/

/-- Slot 2 about to take an item, in a state, with a count. -/
def slotTwo (state : SlotState) (trigger : SlotTrigger) (count : Nat) (item : StreamItem) : State :=
  up.setSlot 2 { lastOfFour .mean trigger ⟨6, 3, 1, 0⟩ item with
    state := state, count := count, window := if count = 0 then none else some ⟨6, 3, 1, 0⟩
    starts := 1 }

/-- Items in flight to consumers that are not enabled. -/
theorem witness_missed_items :
    ∀ item ∈ [StreamItem.sample 5 8, .mark],
      (∀ x, x = up.setSlot 3 { Slot.reset with inbox := [item] } →
        (x.slots.get 3).inbox = [item] ∧ (x.slots.get 3).state = .off)
      ∧ (∀ x, x = up.setRule 3 { Rule.reset with inbox := [item] } →
        (x.rules.get 3).inbox = [item] ∧ (x.rules.get 3).enabled = false)
      ∧ (∀ x, x = up.setRing 3 { Ring.reset with inbox := [item] } →
        (x.rings.get 3).inbox = [item] ∧ (x.rings.get 3).enabled = false) := by
  intro item _
  exact ⟨fun x hx => hx ▸ ⟨rfl, rfl⟩, fun x hx => hx ▸ ⟨rfl, rfl⟩, fun x hx => hx ▸ ⟨rfl, rfl⟩⟩

theorem witness_SlotTakesSample :
    ((slotTwo .idle .gated 0 (.sample 1 3)).slots.get 2).state = .idle
      ∧ ((slotTwo .accum .gated 2 (.sample 1 3)).slots.get 2).count + 1 < 2 ^ 2
      ∧ 2 ^ 2 ≤ ((slotTwo .accum .gated 3 (.sample 1 3)).slots.get 2).count + 1
      ∧ ((slotTwo .accum .gated 3 (.sample 1 3)).slots.get 2).inbox = [.sample 1 3]
      ∧ ((slotTwo .accum .gated 3 (.sample 1 3)).slots.get 2).exponent = 2 := by decide +kernel

theorem witness_OutputArithmetic :
    [(-8388608 : Int), 8388607, 0, -1].length = 2 ^ 2
      ∧ ∀ u ∈ [(-8388608 : Int), 8388607, 0, -1], -8388608 ≤ u ∧ u ≤ 8388607 := by decide

theorem witness_SlotTakesGapMark :
    (∀ n ∈ [0, 1], ((slotTwo .accum .gated n .mark).slots.get 2).inbox = [.mark]
        ∧ ((slotTwo .accum .gated n .mark).slots.get 2).state ≠ .off)
      ∧ 1 ≤ ((slotTwo .accum .gated 1 .mark).slots.get 2).count := by decide +kernel

theorem witness_StartOpensWindow :
    ((slotTwo .idle .gated 0 .mark).slots.get 2).starts = 0 + 1
      ∧ (((slotTwo .idle .gated 0 .mark).slots.get 2).enabled = true
        ∧ ((slotTwo .idle .gated 0 .mark).slots.get 2).trigger = .gated)
      ∧ ((slotTwo .accum .gated 1 .mark).slots.get 2).state ≠ .idle
      ∧ Executes (asked 0x0F [2] (slotTwo .idle .gated 0 .mark)) (theRequest 0x0F [2]) 0x0F
      ∧ Executes (asked 0x0F [16] (slotTwo .idle .gated 0 .mark)) (theRequest 0x0F [16]) 0x0F :=
  ⟨rfl, ⟨rfl, rfl⟩, by decide +kernel, asked_executes _ _ _ rfl, asked_executes _ _ _ rfl⟩

theorem witness_RuleStepsWatchMachine :
    (((up.setRule 4 { ruleFour .clear 0 0 (.sample 7 1) with criterion := .step, previous := none }
        ).rules.get 4).previous = none)
      ∧ TakesValue (ruleFour .clear 0 0 (.sample 7 1)) (.sample 7 1) 7 1
      ∧ TakesValue (ruleFour .active 0 0 .mark)
          (.record ⟨2, .peak, 5, 0, .peak 130 12, 0, false⟩) 130 5
      ∧ (ruleFour .clear 0 0 (.sample 7 1)).enabled = true
      ∧ (ruleFour .clear 0 0 (.sample 7 1)).state ≠ .off :=
  ⟨rfl, .inl rfl, .inr ⟨_, rfl, rfl, .inr ⟨130, 12, rfl, rfl⟩⟩, rfl, by decide⟩

theorem witness_AssertAndReleaseExclude :
    ConsistentRule { Rule.reset with criterion := .outside, low := -100, high := 100, hyst := 100 }
      ∧ ¬ ConsistentRule { Rule.reset with criterion := .outside, low := -100, high := 100, hyst := 101 } := by
  decide

theorem witness_RuleTakesGapMark :
    ((up.setRule 4 { ruleFour .leaving 1 0 .mark with inbox := [.mark, .mark] }).rules.get 4).inbox
        = [.mark, .mark]
      ∧ ((up.setRule 4 { ruleFour .active 0 0 .mark with
          criterion := .step, inbox := [.mark, .sample 300 3] }).rules.get 4).inbox
        = .mark :: .sample 300 3 :: []
      ∧ (ruleFour .leaving 1 0 .mark).enabled = true ∧ (ruleFour .leaving 1 0 .mark).state ≠ .off := by
  decide +kernel

/-! ### Witnesses: rings -/

/-- A STREAM ring at the top of capture memory about to take an item into half B. -/
def topRing (writer : Writer) (fill : Nat) (item : StreamItem) : Ring :=
  { ringZero 0 item with
    base := 65408
    stream := ⟨writer, ⟨.full, 64, false, false⟩, ⟨.filling, fill, false, false⟩, false⟩ }

theorem witness_StreamRingTakesWords :
    ∀ fill ∈ [62, 63], ∀ r, r = topRing (.filling .b) fill (.sample 5 1) →
      (up.setRing 7 r).memory.wf = true ∧ (up.setRing 7 r).rings.get 7 = r
      ∧ r.inbox = [.sample 5 1] ∧ r.enabled = true ∧ r.mode = .stream
      ∧ (r.stream.half HalfId.b.other).state ≠ .filling ∧ 65408 + 64 + fill + 1 ≤ 65536
      ∧ (topRing (.stalled .a) 64 (.sample 5 1)).stream.writer = .stalled .a := by
  intro fill hf r hr
  subst hr
  refine ⟨rfl, rfl, rfl, rfl, rfl, nofun, ?_, rfl⟩
  revert fill; decide

/-- A SNAPSHOT ring at the top of capture memory about to take an item. -/
def topSnapshot (state : SnapState) (post remaining : Nat) (item : StreamItem) : Ring :=
  { topRing .off 0 item with
    mode := .snapshot
    postCount := post
    stream := StreamState.reset
    snapshot := ⟨state, 127, 128, remaining, false,
      if state = .countdown then some ⟨.manual, 5⟩ else none,
      if state = .frozen then some ⟨.manual, 5, 9, 128, 84⟩ else none⟩
    freezes := [9] }

theorem witness_SnapshotRingTakesWords :
    ((topSnapshot .run 40 0 (.sample 5 1)).base + (topSnapshot .run 40 0 (.sample 5 1)).length ≤ 65536
        ∧ (topSnapshot .run 40 0 (.sample 5 1)).snapshot.position
          < (topSnapshot .run 40 0 (.sample 5 1)).length)
      ∧ 128 ≤ (topSnapshot .run 40 0 (.sample 5 1)).length
      ∧ (topSnapshot .countdown 40 1 (.sample 5 1)).snapshot.pending = some ⟨.manual, 5⟩
      ∧ (topSnapshot .countdown 40 1 (.sample 5 1)).snapshot.remaining ≤ [(5 : Int)].length
      ∧ [(5 : Int)].length < (topSnapshot .countdown 40 2 (.sample 5 1)).snapshot.remaining
      ∧ (topSnapshot .frozen 40 0 (.sample 5 1)).snapshot.state = .frozen
      ∧ ((up.setRing 7 (topSnapshot .run 40 0 (.sample 5 1))).rings.get 7).inbox = [.sample 5 1] := by
  decide +kernel

theorem witness_RingTakesGapMark :
    ((up.setRing 7 (topRing (.filling .b) 5 .mark)).rings.get 7).inbox = [.mark]
      ∧ (topRing (.filling .b) 5 .mark).stream.writer = .filling .b
      ∧ (topRing (.stalled .a) 5 .mark).stream.writer = .stalled .a
      ∧ (topSnapshot .run 40 0 .mark).snapshot.state = .run
      ∧ (topSnapshot .frozen 40 0 .mark).snapshot.state = .frozen
      ∧ (topSnapshot .run 40 0 .mark).mode = .snapshot := by decide +kernel

theorem witness_FreezeStartsCountdown :
    (∀ r ∈ [topSnapshot .run 40 0 .mark, topSnapshot .run 0 0 .mark, topSnapshot .frozen 0 0 .mark],
        (9 : Fin 32) ∈ ((up.setRing 7 r).rings.get 7).freezes)
      ∧ (topSnapshot .run 40 0 .mark).postCount ≠ 0 ∧ (topSnapshot .run 0 0 .mark).postCount = 0
      ∧ (∀ (b : Byte) (r : Ring),
        Executes (asked 0x0D [b] (up.setRing 7 r)) (theRequest 0x0D [b]) 0x0D)
      ∧ (7 : Byte).toNat = (7 : Fin 8).val ∧ 8 ≤ (8 : Byte).toNat
      ∧ (up.rings.get 7).enabled = false ∧ (topRing (.filling .b) 0 .mark).mode = .stream :=
  ⟨by decide +kernel, by decide, by decide, fun _ _ => asked_executes _ _ _ rfl, by decide, by decide,
    by decide +kernel, rfl⟩

/-! ### Witnesses: events and egress -/

/-- A state with records queued, a loss count pending or not, and a request in flight. -/
def asking (n loss : Nat) : State :=
  { up with events := { up.events with
      queue := records 0 n .unsent, serial := n, pendingLoss := loss
      requests := [⟨.rule 4, .ruleAssert, 4, some 7, some 1040, some 106, 5⟩] } }

theorem witness_EventUnitQueuesRequests :
    ((asking 0 0).events.requests.map (·.requester) = [.rule 4])
      ∧ ((asking 127 0).events.queue.length < 128 ∧ (asking 127 0).events.pendingLoss = 0)
      ∧ 128 ≤ (asking 128 0).events.queue.length
      ∧ ((asking 126 3).events.queue.length < 127 ∧ (asking 126 3).events.pendingLoss ≠ 0)
      ∧ (asking 127 3).events.queue.length = 127 ∧ (asking 127 3).events.serial < 65536 := by
  decide +kernel

theorem witness_DeliveryFollowsTimerAndLink :
    (queued (records 100 3 .sent) 103 (.running 0)).events.timer = .running 0
      ∧ ({ State.reset with events := { State.reset.events with linkChanges := [.cameUp] } }
        : State).events.delivery = .suspended
      ∧ ({ up with events := { up.events with linkChanges := [.leftUp] } } : State).events.linkChanges
        = [.leftUp] := by decide +kernel

theorem witness_EventFrameCarriesOldestUnsent :
    ∀ s, s = queued (records 40 7 .sent ++ records 47 5 .unsent) 52 (.running 5) →
      s.cPort.link = .up ∧ s.cPort.sending = none ∧ s.cPort.paused = false ∧ s.egress.held = false
      ∧ s.egress.cChanges = [] ∧ s.egress.mr = [] ∧ s.events.delivery = .active
      ∧ (∀ r ∈ records 40 7 .sent, r.sent = .sent) ∧ (∀ r ∈ records 47 5 .unsent, r.sent = .unsent)
      ∧ records 47 5 .unsent ≠ []
      ∧ (records 40 7 .sent).length < s.management.global.eventWindow
      ∧ 1 = min 4 (min (s.management.global.eventWindow - (records 40 7 .sent).length)
          (records 47 5 .unsent).length) := by
  rintro s rfl
  decide +kernel

/-- An output record at the ends of the ranges of its fields. -/
def widestRecord (data : OutputData) : OutputRecord :=
  ⟨15, .peak, 4294967295, 4294967295, data, 4294967295, true⟩

theorem witness_FormedFramesReadBack :
    (List.replicate 252 (0xFF : Byte)).length ≤ 252
      ∧ (assertRecord.serial < 65536 ∧ assertRecord.subject < 256 ∧ assertRecord.time < 4294967296)
      ∧ (∀ n, assertRecord.count = some n → n < 4294967296)
      ∧ (∀ v, assertRecord.value = some v → -2147483648 ≤ v ∧ v ≤ 2147483647)
      ∧ (widestRecord (.value (-2147483648))).outputIndex < 4294967296
      ∧ (widestRecord (.peak 2147483647 (-2147483648))).time < 4294967296 := by
  refine ⟨by decide +kernel, by decide, fun n h => ?_, fun v h => ?_, by decide, by decide⟩
  · cases h; decide
  · cases h; decide

/-- The longest payloads of the four frames the part forms: 72, 75, 217 and 199 bytes (sections 10.3 and
10.4). -/
theorem witness_FormedFramesReadBack_payloads :
    4 + (List.replicate 68 (0 : Byte)).length ≤ 252
      ∧ ((records 65532 4 .unsent).length = 3 + 1 ∧ 3 + 18 * 4 ≤ 252
        ∧ (records 65532 4 .unsent)[3]?.map (·.serial) = some 65535)
      ∧ ((List.replicate 12 (widestRecord (.value 0))).length ≤ 12 ∧ 1 + 18 * 12 ≤ 252)
      ∧ (∀ v ∈ List.replicate 48 (-2147483648 : Int), -2147483648 ≤ v ∧ v ≤ 2147483647)
      ∧ (List.replicate 48 (-2147483648 : Int)).length ≤ 48 ∧ 255 < 256 ∧ 65520 < 65536 := by
  decide +kernel

/-- The assembler with records in its open frame and one in flight to it. -/
def packing (n : Nat) (dt : List DtFrame) : State :=
  { up with egress := { up.egress with
      openFrame := List.replicate n (widestRecord (.value 0)), records := [widestRecord (.value 1)]
      holdTimer := .running 0, dt := dt } }

theorem witness_AssemblerPacksRecords :
    (packing 11 []).egress.records = [] ++ widestRecord (.value 1) :: []
      ∧ (packing 0 []).egress.openFrame = []
      ∧ ((packing 10 []).egress.openFrame ≠ [] ∧ (packing 10 []).egress.openFrame.length ≤ 10)
      ∧ (packing 11 []).egress.openFrame.length = 11 ∧ (packing 1 []).egress.holdTimer = .running 0
      ∧ ({ packing 1 [] with egress := { (packing 1 []).egress with held := true } } : State).egress.held
        = true
      ∧ (packing 11 (List.replicate 15 (.reduced []))).egress.dt.length < 16
      ∧ ¬ (packing 11 (List.replicate 16 (.reduced []))).egress.dt.length < 16 := by decide +kernel

/-- A state of the arbiter in which EV is not ready: delivery is FAILED. -/
def deciding (fw : Nat) (dt : List DtFrame) (streak : Nat) (engine : EngineState) : State :=
  { busy fw 0 streak with
    egress := { (busy fw 0 streak).egress with dt := dt }
    events := { up.events with delivery := .failed }
    readout := { up.readout with engine := engine } }

/-- What every statement about a grant asks of the C-port and the scheduler. -/
theorem deciding_can_grant (fw : Nat) (dt : List DtFrame) (streak : Nat) (engine : EngineState) :
    ∀ s, s = deciding fw dt streak engine →
      s.cPort.link = .up ∧ s.cPort.sending = none ∧ s.cPort.paused = false ∧ s.egress.held = false
      ∧ s.egress.cChanges = [] ∧ s.egress.mr = [] ∧ s.events.delivery ≠ .active := by
  rintro s rfl
  exact ⟨rfl, rfl, rfl, rfl, rfl, rfl, nofun⟩

theorem witness_ArbiterGrantsByPriority :
    ((deciding 5 [.reduced []] 1 .free).egress.streak
        < (deciding 5 [.reduced []] 1 .free).management.global.dtStreak)
      ∧ ((deciding 5 [.reduced []] 2 .free).management.global.dtStreak
        ≤ (deciding 5 [.reduced []] 2 .free).egress.streak)
      ∧ (deciding 5 [] 0 .free).egress.dt = [] ∧ (deciding 0 [.reduced []] 0 .free).egress.fw = []
      ∧ ({ up with egress := { up.egress with mr := [⟨0, bareReply (theRequest 1 []) .ok⟩] } }
        : State).egress.mr ≠ []
      ∧ (queued (records 40 1 .unsent) 41 .stopped).events.ready 8 = true := by decide +kernel

/-- Half A of ring 0 being read, from a readout offset, with some frames of it in DT. -/
def readingHalfA (offset queuedFrames : Nat) : ReadoutRecord :=
  ⟨16, 0, .halfA, 64, 0, false, offset, 0, queuedFrames, false⟩

theorem witness_ReadoutFramesAreProduced :
    ((deciding 0 (List.replicate 15 (.reduced [])) 0 (.sending (readingHalfA 48 7))).egress.dt.length
        < 16)
      ∧ (readingHalfA 48 7).framesQueued < 8 ∧ (readingHalfA 48 7).lastQueued = false
      ∧ (∀ j, j < min 48 ((readingHalfA 48 7).total - (readingHalfA 48 7).nextOffset) →
        (readingHalfA 48 7).start + ((readingHalfA 48 7).nextOffset + j) < 65536)
      ∧ (⟨16, 0, .halfA, false, 0, true⟩ : TerminatingRecord).pending = true := by
  refine ⟨by decide +kernel, by decide, by decide, fun j hj => ?_, rfl⟩
  simp only [readingHalfA] at hj ⊢
  omega

/-- A READOUT frame of that readout. -/
def frameOfHalfA (last aborted : Bool) : ReadoutFrame :=
  ⟨16, 0, .halfA, 0, List.replicate 48 0, false, last, aborted⟩

/-- The same with delivery ACTIVE and the window full of SENT records, at a streak of S with FW in use. -/
def pastStreak (dt : List DtFrame) (engine : EngineState) : State :=
  { deciding 5 dt 2 engine with
    events := (queued (records 40 8 .sent ++ records 48 2 .unsent) 50 (.running 5)).events }

theorem witness_ReadoutFrameGrants :
    (∀ s, s = pastStreak [.readout (frameOfHalfA false false)] (.sending (readingHalfA 48 1)) →
      s.cPort.link = .up ∧ s.cPort.sending = none ∧ s.cPort.paused = false ∧ s.egress.held = false
      ∧ s.egress.cChanges = [] ∧ s.egress.mr = [] ∧ s.events.delivery = .active
      ∧ ¬ (s.events.queue.filter (fun r => decide (r.sent = .sent))).length
        < s.management.global.eventWindow
      ∧ s.management.global.dtStreak ≤ s.egress.streak ∧ s.egress.fw ≠ []
      ∧ ReadoutInMemory s (readingHalfA 48 1))
      ∧ (lastWaits.readout.engine = .sending ⟨16, 0, .halfA, 64, 0, false, 64, 48, 1, true⟩
        ∧ RingPart.halfA.half = some .a)
      ∧ ReadoutInMemory (deciding 0 [.readout (frameOfHalfA false false)] 0
          (.sending (readingHalfA 48 1))) (readingHalfA 48 1)
      ∧ (deciding 0 [.readout (frameOfHalfA false false)] 0 (.sending (readingHalfA 48 1))).egress.fw = []
      ∧ (frameOfHalfA false false).last = false
      ∧ (deciding 0 [.readout (frameOfHalfA true true)] 0
          (.terminating ⟨16, 0, .halfA, false, 0, false⟩)).egress.dt
        = [.readout (frameOfHalfA true true)]
      ∧ (deciding 0 (List.replicate 16 (.reduced [])) 0
          (.terminating ⟨16, 0, .halfA, false, 0, true⟩)).egress.dt
        = .reduced [] :: List.replicate 15 (.reduced [])
      ∧ (deciding 0 [.reduced [], .readout (frameOfHalfA true true)] 0
          (.terminating ⟨16, 0, .halfA, false, 0, false⟩)).egress.dt
        = .reduced [] :: [.readout (frameOfHalfA true true)] := by
  refine ⟨?_, ?_⟩
  · rintro s rfl
    unfold ReadoutInMemory
    decide +kernel
  · unfold ReadoutInMemory
    decide +kernel

/-- Section 8.8: 3 READOUT and 8 REDUCED frames in DT, and a readout of half A of ring 0 with words left. -/
def besideReduced : State :=
  let f (j : Nat) : ReadoutFrame := ⟨16, 0, .halfA, 48 * j, List.replicate 48 0, false, false, false⟩
  deciding 0 ((List.range 3).map (fun j => .readout (f j)) ++ List.replicate 8 (.reduced [])) 0
    (.sending ⟨16, 0, .halfA, 4096, 0, false, 144, 0, 3, false⟩)

theorem test_grant_makes_room :
    (fun t : State => (readoutsInDt t.egress.dt, reducedInDt t.egress.dt))
      (after (exec .arbiterGrant besideReduced)) = (8, 8) := by decide +kernel

/-- Section 8.8 step 2: a REDUCED frame of 5 records finds 8 REDUCED frames beside the readout. -/
theorem test_reduced_frame_dropped :
    (after (exec .reducedHoldExpiry { besideReduced with
      egress := { besideReduced.egress with
        openFrame := List.replicate 5 (widestRecord (.value 0)), holdTimer := .running 0 } }
      )).egress.reducedDropped = 5 := by decide +kernel

/-- A state in which the scheduler is about to take a change of the C-port, with one record queued. -/
def changing (x : LinkChange) (engine : EngineState) : State :=
  { deciding 5 [.reduced []] 1 engine with
    events := (queued (records 40 1 .unsent) 41 .stopped).events
    egress := { (deciding 5 [.reduced []] 1 engine).egress with
      cChanges := [x], held := decide (x = .cameUp) } }

theorem witness_CPortChangesReachEgress :
    (changing .leftUp (.sending (readingHalfA 48 1))).egress.cChanges = [.leftUp]
      ∧ (readingHalfA 48 1).part.half = some .a
      ∧ (changing .cameUp (.sending (readingHalfA 0 0))).egress.cChanges = [.cameUp]
      ∧ EventsLead (changing .cameUp (.sending (readingHalfA 0 0)))
      ∧ ¬ EventsLead { changing .cameUp .free with events := up.events }
      ∧ ReadoutInMemory (changing .cameUp (.sending (readingHalfA 0 0))) (readingHalfA 0 0)
      ∧ (changing .cameUp (.terminating ⟨16, 0, .halfA, false, 0, true⟩)).egress.dt.length < 16 := by
  unfold ReadoutInMemory EventsLead
  decide +kernel

/-- R174: the scheduler takes the coming UP behind the event unit, so that the first frame is an event frame. -/
theorem test_events_first_after_up :
    (fun changes => (after (exec .cPortComingUpEgress { changing .cameUp .free with
        events := { (changing .cameUp .free).events with linkChanges := changes } })).egress.held)
      <$> [[.cameUp], []] = [true, false] := by decide +kernel

/-! ### Witnesses: requests -/

theorem witness_RequestsAreTakenInStages :
    (({ up with management := { up.management with current := some [4, 7, 6] } } : State).currentRequest
        = some ⟨4, 7, 6, []⟩)
      ∧ (({ asked 0x06 [] up with management := { (asked 0x06 [] up).management with
          cache := up.management.cache.set 0 (some ⟨7, bareReply (theRequest 6 []) .ok⟩) } }
        : State).management.cache.get 0 = some ⟨7, bareReply (theRequest 6 []) .ok⟩)
      ∧ argumentLengthGood 0x06 (theRequest 0x06 [1]).args = false
      ∧ Executes (asked 0x06 [1] up) (theRequest 0x06 [1]) 0x06
      ∧ Executes (asked 0x13 [] up) (theRequest 0x13 []) 0x13
      ∧ Executes (asked 0x00 [] up) (theRequest 0x00 []) 0x00
      ∧ ({ up with management := { up.management with current := some [0, 7] } }
        : State).management.current = some [0, 7] :=
  ⟨rfl, rfl, by decide, asked_executes _ _ _ rfl, asked_executes _ _ _ rfl, asked_executes _ _ _ rfl, rfl⟩

/-- Every request of the part with its arguments can be the one that is executed. -/
theorem witness_requests (code : Byte) (args : List Byte) :
    Executes (asked code args up) (theRequest code args) code.toNat
      ∧ (theRequest code args).args = args := ⟨asked_executes _ _ _ rfl, rfl⟩

theorem witness_IdentityStatusCountersAndTime :
    (∀ code ∈ [(1 : Byte), 6, 7], Executes (asked code [] inUse) (theRequest code []) code.toNat)
      ∧ Executes (asked 8 [255, 255, 255, 255] inUse) (theRequest 8 [255, 255, 255, 255]) 8 :=
  ⟨fun _ _ => asked_executes _ _ _ rfl, asked_executes _ _ _ rfl⟩

/-- A state that executes a request in which some blocks have taken their share. -/
def shared (code : Byte) (taken : List Block) : State :=
  { asked code [] inUse with management :=
    { (asked code [] inUse).management with shares := { Shares.reset with taken := taken } } }

theorem shared_executes (code : Byte) (taken : List Block) :
    Executes (shared code taken) (theRequest code []) code.toNat := by
  have h := asked_executes code [] inUse rfl
  exact h

/-- The six owning blocks (R140), and the seven that take a reset before the management unit (R145). -/
theorem witness_shares :
    (∀ code ∈ [(6 : Byte), 7],
        (∃ b, takesPart code.toNat b ∧ b ∉ (shared code [.fPort, .egress, .readout]).management.shares.taken)
        ∧ ∀ b, takesPart code.toNat b
          → b ∈ (shared code [.readout, .fPort, .egress, .events, .cPort, .classifier]).management.shares.taken)
      ∧ (∃ b, takesPart 18 b ∧ b ∉ (shared 18 [.capture]).management.shares.taken)
      ∧ (∀ b, takesPart 18 b → b ∈ (shared 18 [.capture, .reduction, .cPort, .watch, .fPort,
          .classifier]).management.shares.taken)
      ∧ SharesSound (shared 6 [.fPort, .egress]) := by
  have h6 : ∀ b, takesPart 6 b → b ∈ [Block.readout, .fPort, .egress, .events, .cPort, .classifier] := by
    intro b; cases b <;> simp [takesPart]
  refine ⟨?_, ⟨.reduction, by simp [takesPart], by decide⟩, ?_, ?_⟩
  · simp only [List.mem_cons, List.not_mem_nil, or_false, forall_eq_or_imp, forall_eq]
    exact ⟨⟨⟨.cPort, by simp [takesPart], by decide⟩, h6⟩,
      ⟨.cPort, by simp [takesPart], by decide⟩, fun b hb => h6 b (by simpa [takesPart] using hb)⟩
  · intro b; cases b <;> simp [takesPart, shared]
  · exact ⟨by decide, fun _ => ⟨_, 6, shared_executes _ _, by decide, fun b hb => by
      fin_cases hb <;> simp [takesPart]⟩⟩

/-- R113: the event unit takes its reset when every other block has, and the reply stands in MR then: it is
granted, and STARTED(RESTART) is not sent before it. -/
theorem test_restart_reply_goes_first :
    (fun t : State => (t.events.queue.map (·.kind), t.egress.mr.length,
        sentCount (after (exec .arbiterGrant t)).events.queue))
      (after (exec .restart (shared 0x12 restartBlocks))) = ([.started], 1, 0) := by decide +kernel

/-- Case 2 of R158, with FW in use and DT past the streak, while the C-port's LINK_STATE request is in flight
(R114), and while RESTART is being executed: EV is granted. -/
theorem test_ready_events_are_granted :
    (fun s : State => (fun t : State => (t.cPort.sending.isSome, t.egress.fw.length,
        sentCount t.events.queue)) (after (exec .arbiterGrant s)))
      <$> [{ pastStreak [.reduced []] .free with
          events := { (queued (records 40 2 .unsent) 42 .stopped).events with
            requests := [⟨.port .c, .linkState, 3, none, none, none, 5⟩] } },
        { shared 0x12 [.watch] with egress := { up.egress with fw := [[1]] } }]
      = [(true, 5, 2), (true, 1, 2)] := by decide +kernel

/-- R141: a READ_STATUS event gives one block's values, whichever block it is, and no reply. -/
theorem test_one_share_at_a_time :
    (fun t : State => (t.management.shares.taken.length, statusesIn t))
      (after (exec .readStatus (asked 6 [] inUse))) = (1, []) := by
  obtain ⟨b, _, _, h⟩ := Executes.gather_share (asked_executes 6 [] inUse rfl) (by decide)
    State.statusShare (fun t => (.ok, t.management.shares.readings.results, t))
    (blocks := statusOwners) (by decide +kernel)
  rw [show exec .readStatus (asked 6 [] inUse) = _ from h]
  cases b <;> rfl

/-- The boundary indices of the six tables, as bytes of a request. -/
theorem witness_ReadEntryGivesTheRecord :
    (∀ t i : Byte, Executes (asked 2 [t, i] inUse) (theRequest 2 [t, i]) 2)
      ∧ (63 : Byte).toNat = (63 : Fin 64).val ∧ 64 ≤ (64 : Byte).toNat
      ∧ (30 : Byte).toNat = (29 : Fin 30).val + 1 ∧ 31 ≤ (31 : Byte).toNat
      ∧ (15 : Byte).toNat = (15 : Fin 16).val ∧ (31 : Byte).toNat = (31 : Fin 32).val
      ∧ (7 : Byte).toNat = (7 : Fin 8).val ∧ 7 ≤ (7 : Byte).toNat :=
  ⟨fun _ _ => asked_executes _ _ _ rfl, by decide, by decide, by decide, by decide, by decide, by decide,
    by decide, by decide⟩

theorem witness_WriteEntryIsAllOrNothing :
    (∀ args, Executes (asked 3 args inUse) (theRequest 3 args) 3)
      ∧ (∀ m, argumentLengthGood 3 (writeRing m) = true)
      ∧ (∀ x ∈ [(1, 17), (2, 19), (3, 17), (4, 38), (6, 7)], argumentLengthGood 3
          ([byteOf x.1, 0, 0, 0, 0, 2] ++ List.replicate x.2 1) = true)
      ∧ argumentLengthGood 3 [7, 0, 0, 0, 0, 1] = true
      ∧ ((inUse.channel 7).enabled = true ∧ (inUse.slots.get 2).enabled = true
        ∧ (inUse.rules.get 4).enabled = true ∧ (inUse.rings.get 0).enabled = true)
      ∧ (RingValuesGood (inUse.rings.get 0) 160 ((writeRing 160).drop 6)
        ∧ ¬ RingValuesGood (inUse.rings.get 0) 96 ((writeRing 96).drop 6))
      ∧ (ChannelValuesGood 31 [0, 30, 15, 1, 2, 2] ∧ ¬ ChannelValuesGood 1 [0, 31])
      ∧ (SlotValuesGood 63 [0, 63, 2, 8, 1, 1, 1] ∧ ¬ SlotValuesGood 4 [0, 0, 0, 9])
      ∧ (RuleValuesGood 0xC40 (List.replicate 13 0 ++ [0x7F, 255, 255, 255, 0, 0, 0, 7, 255])
        ∧ ¬ RuleValuesGood 0x40 (List.replicate 13 0 ++ [0x80]))
      ∧ (GlobalValuesGood 126 [0, 1, 16, 255, 15, 64, 16] ∧ ¬ GlobalValuesGood 4 [0, 0, 17]) := by
  refine ⟨fun _ => asked_executes _ _ _ rfl, fun m => rfl, by decide, by decide, by decide +kernel,
    ⟨?_, ?_⟩, ⟨?_, ?_⟩, ⟨?_, ?_⟩, ⟨?_, ?_⟩, ?_, ?_⟩
  · unfold RingValuesGood; decide +kernel
  · unfold RingValuesGood; decide +kernel
  · unfold ChannelValuesGood; decide +kernel
  · unfold ChannelValuesGood; decide +kernel
  · unfold SlotValuesGood; decide +kernel
  · unfold SlotValuesGood; decide +kernel
  · unfold RuleValuesGood; decide +kernel
  · unfold RuleValuesGood; decide +kernel
  · unfold GlobalValuesGood; decide +kernel
  · unfold GlobalValuesGood; decide +kernel

theorem witness_EnableChecksAndBegins :
    (∀ t i : Byte, Executes (asked 4 [t, i] inUse) (theRequest 4 [t, i]) 4)
      ∧ ((inUse.channel 7).enabled = true ∧ (inUse.channel 0).enabled = false
        ∧ (inUse.channel 0).node = 0)
      ∧ (∀ x, x = inUse.setChannel 0 { Channel.reset with node := 5, input := 2 } →
        (x.channel 7).node = (x.channel 0).node ∧ (x.channel 7).input = (x.channel 0).input
        ∧ (x.channel 0).node ≠ x.ownNode)
      ∧ ((inUse.slots.get 0).enabled = false ∧ (inUse.channel (inUse.slots.get 0).channel).enabled = false)
      ∧ ConsistentRule (inUse.rules.get 0)
      ∧ ¬ SourceOn inUse (inUse.rules.get 0).sourceKind (inUse.rules.get 0).sourceIndex
      ∧ (∀ x, x = (inUse.setRing 1 { ringZero 0 .mark with mode := .snapshot, base := 128 }).setRule 0
          { Rule.reset with sourceKind := .slot, sourceIndex := 2, freezeRing := some 1 } →
        SourceOn x (x.rules.get 0).sourceKind (x.rules.get 0).sourceIndex
          ∧ FreezeRingOn x (x.rules.get 0) ∧ StartSlotOn x (x.rules.get 0))
      ∧ (∀ x, x = inUse.setRule 0
          { Rule.reset with sourceIndex := 7, freezeRing := some 0, startSlot := some 2 } →
        ¬ FreezeRingOn x (x.rules.get 0) ∧ ¬ StartSlotOn x (x.rules.get 0))
      ∧ (inUse.rings.get 1).length = 0
      ∧ (∀ x, x = inUse.setRing 1 { Ring.reset with base := 64, length := 128 } →
        (x.rings.get 0).base + (x.rings.get 0).length = 64 + (x.rings.get 1).base)
      ∧ (∀ x, x = inUse.setRing 1 { Ring.reset with base := 128, length := 128, sourceIndex := 7 } →
        SourceOn x (x.rings.get 1).sourceKind (x.rings.get 1).sourceIndex) := by
  refine ⟨fun _ _ => asked_executes _ _ _ rfl, by decide +kernel, ?_, by decide +kernel,
    by decide +kernel, by decide +kernel, ?_, ?_, by decide +kernel, ?_, ?_⟩ <;> rintro x rfl <;>
    decide +kernel

theorem witness_DisableChecksAndEnds :
    (∀ t i : Byte, Executes (asked 5 [t, i] inUse) (theRequest 5 [t, i]) 5)
      ∧ ((inUse.channel 0).enabled = false ∧ (inUse.slots.get 2).channel = 8)
      ∧ (∀ k, (inUse.rings.get k).enabled = true → (inUse.rings.get k).sourceKind = .channel)
      ∧ (inUse.rules.get 4).enabled = true ∧ (inUse.rules.get 4).freezeRing = none
      ∧ lastWaits.readout.engine = .sending ⟨16, 0, .halfA, 64, 0, false, 64, 48, 1, true⟩ :=
  ⟨fun _ _ => asked_executes _ _ _ rfl, by decide +kernel, by decide +kernel, by decide +kernel,
    by decide +kernel, rfl⟩

theorem witness_ReadoutRequestsClaimAndGiveBack :
    (∀ args, Executes (asked 9 args halfAFull) (theRequest 9 args) 9)
      ∧ Executes (asked 10 [] lastWaits) (theRequest 10 []) 10
      ∧ ((halfAFull.rings.get 0).stream.half .a).state = .full ∧ halfAFull.readout.engine = .free
      ∧ ((halfAFull.rings.get 0).stream.half .b).state ≠ .full ∧ (halfAFull.rings.get 1).enabled = false
      ∧ (frozenRing.snapshot.state = .frozen ∧ frozenRing.snapshot.record = some ⟨.rule 9, 0, 0, 128, 84⟩
        ∧ 128 ≤ frozenRing.length)
      ∧ (∀ f, DtFrame.readout f ∈ lastWaits.egress.dt → f.id = 16)
      ∧ lastWaits.egress.held = false
      ∧ (deciding 0 (List.replicate 16 (.reduced [])) 0 (.sending (readingHalfA 0 0))).egress.dt.filter
          (fun f => match f with
            | .reduced _ => true
            | .readout _ => false) = List.replicate 16 (.reduced []) := by
  refine ⟨fun _ => asked_executes _ _ _ rfl, asked_executes _ _ _ rfl, by decide +kernel, rfl,
    by decide +kernel, by decide +kernel, by decide, fun f hf => ?_, rfl, by decide +kernel⟩
  simp only [lastWaits, List.mem_singleton, DtFrame.readout.injEq] at hf
  rw [hf]

theorem witness_AcceptedReadoutPlacesItsFirstFrames :
    Executes (asked 9 [0, 0] halfAFull) (theRequest 9 [0, 0]) 9
      ∧ halfAFull.egress.held = false ∧ (halfAFull.rings.get 0).mode = .stream
      ∧ 64 = ((halfAFull.rings.get 0).stream.half .a).fill ∧ 64 ≤ (halfAFull.rings.get 0).length / 2
      ∧ Executes (asked 9 [4, 2] (up.setRing 4 frozenRing)) (theRequest 9 [4, 2]) 9
      ∧ (up.setRing 4 frozenRing).rings.get 4 = frozenRing
      ∧ frozenRing.base + frozenRing.length ≤ 65536
      ∧ ((((84 : Nat) : Int) - (128 : Nat)) % (128 : Nat)).toNat = 84 :=
  ⟨asked_executes _ _ _ rfl, rfl, rfl, by decide +kernel, by decide +kernel, asked_executes _ _ _ rfl, rfl,
    by decide, by decide⟩

theorem witness_RingRequestsMoveTheRing :
    (∀ code ∈ [(11 : Byte), 12, 14], ∀ args,
        Executes (asked code args halfAFull) (theRequest code args) code.toNat)
      ∧ (((halfAFull.rings.get 0).stream.half .a).state = .full
        ∧ (halfAFull.rings.get 0).stream.writer ≠ .stalled .a)
      ∧ (topRing (.stalled .a) 64 .mark).stream.writer = .stalled .a
      ∧ ((halfAFull.rings.get 0).stream.writer = .filling .b
        ∧ ((halfAFull.rings.get 0).stream.half .b).fill = 0)
      ∧ ((topRing (.filling .b) 1 .mark).stream.half .b).fill ≠ 0
      ∧ frozenRing.snapshot.state = .frozen ∧ (topSnapshot .run 40 0 .mark).snapshot.state = .run :=
  ⟨fun _ _ _ => asked_executes _ _ _ rfl, by decide +kernel, rfl, by decide +kernel, by decide, rfl, rfl⟩

theorem witness_EventAckRemovesRecords :
    Executes (asked 16 [0, 43] (queued (records 40 8 .sent ++ records 48 2 .unsent) 50 (.running 5)))
        (theRequest 16 [0, 43]) 16
      ∧ records 40 8 .sent
        = records 40 3 .sent ++ { assertRecord with serial := 43, sent := .sent } :: records 44 4 .sent
      ∧ (∀ x ∈ records 40 3 .sent, x.serial ≠ 43)
      ∧ (∀ r ∈ records 48 2 .unsent, ¬ (r.serial = 48 ∧ r.sent = .sent)) :=
  ⟨asked_executes _ _ _ rfl, by decide +kernel, by decide +kernel, by decide +kernel⟩

theorem witness_EventResyncReturnsToUnsent :
    Executes (asked 17 [] inUse) (theRequest 17 []) 17 ∧ inUse.events.delivery ≠ .suspended
      ∧ State.reset.events.delivery = .suspended :=
  ⟨asked_executes _ _ _ rfl, by decide, rfl⟩

theorem witness_RestartResetsRuntimeState :
    Executes (asked 18 [] lastWaits) (theRequest 18 []) 18
      ∧ (asked 18 [] lastWaits).management.shares.taken = []
      ∧ ((up.setPort .c { upPort with occupancy := [.removed 0], holdSent := true }).port .c).occupancy
        = [.removed 0] :=
  ⟨asked_executes _ _ _ rfl, rfl, rfl⟩

end Sys2Proof.Tests
end

/-! ## Time and the state right after a hard reset (O2, O3) -/

namespace Sys2Proof

open Sys2Proof.Machine

/-- One microsecond at a port reaches its period alone, and that only in UP (R170). -/
theorem Machine.Port.tick_eq (x : Port) :
    x.tick = { x with flowElapsed := if x.link = .up then x.flowElapsed + 1 else x.flowElapsed } := by
  unfold Port.tick
  split <;> simp [*]

/-- Settles O2: a step on an empty queue is a tick, whose updates are those the statement lists. -/
theorem idleStepPassesOneMicrosecond : Obligations.IdleStepPassesOneMicrosecond := by
  intro s hs
  refine ⟨s.tick, by simp [step, hs], rfl, fun p => ?_, fun h => ?_, fun n h => ?_, fun h => ?_,
    fun n h => ?_, rfl⟩
  · cases p <;> exact Port.tick_eq _
  all_goals simp [State.tick, h, Timer.tick]

section
variable (straps : Fin 16)

@[simp] theorem Machine.State.resetWith_port (p : PortId) :
    (State.resetWith straps).port p = Port.reset := by
  cases p <;> rfl

@[simp] theorem Machine.State.resetWith_channel (c : Fin 64) :
    (State.resetWith straps).channel c = Channel.reset :=
  Table.get_replicate _ _

@[simp] theorem Machine.State.resetWith_node (n : Fin 30) :
    (State.resetWith straps).classifier.nodes.get n = NodeEntry.reset :=
  Table.get_replicate _ _

@[simp] theorem Machine.State.resetWith_slot (k : Fin 16) :
    (State.resetWith straps).slots.get k = Slot.reset :=
  Table.get_replicate _ _

@[simp] theorem Machine.State.resetWith_rule (k : Fin 32) :
    (State.resetWith straps).rules.get k = Rule.reset :=
  Table.get_replicate _ _

@[simp] theorem Machine.State.resetWith_ring (k : Fin 8) :
    (State.resetWith straps).rings.get k = Ring.reset :=
  Table.get_replicate _ _

@[simp] theorem Machine.State.resetWith_cache (tag : Fin 4) :
    (State.resetWith straps).management.cache.get tag = none :=
  Table.get_replicate _ _

end

/-- Settles O3: each table entry by the table's own law, every other field as the reset state lists it. -/
theorem resetGivesEveryBlockItsDefaults : Obligations.ResetGivesEveryBlockItsDefaults := by
  intro straps
  refine ⟨_, rfl, rfl, fun p => ?_, fun n => ?_, fun c => ?_, rfl, fun k => ?_, fun k => ?_,
    fun k => ?_, fun _ => rfl, rfl, rfl, fun tag => ?_, rfl, rfl, rfl, rfl, rfl, rfl, rfl, rfl, rfl⟩
  · rw [State.resetWith_port]; exact ⟨rfl, rfl, rfl, rfl, rfl, rfl, rfl, rfl⟩
  · exact State.resetWith_node straps n
  · exact State.resetWith_channel straps c
  · exact State.resetWith_slot straps k
  · exact State.resetWith_rule straps k
  · exact State.resetWith_ring straps k
  · exact State.resetWith_cache straps tag

end Sys2Proof

/-! ## The settings of the tables: what WRITE_ENTRY, ENABLE and DISABLE set, and nothing else changes

The settings of an entry are the entry with its read-only fields but the enabled flag, and what is in
flight to it, at their hard-reset values. The links between the tables (R11, R25, R44, R45, R69) are about
the settings alone. -/

namespace Sys2Proof.Machine

def Channel.settings (c : Channel) : Channel :=
  { c with sampleIndex := 0, lastValue := none, gapMarks := 0 }

def Slot.settings (x : Slot) : Slot :=
  { x with state := .off, count := 0, outputIndex := 0, brokenWindows := 0, window := none,
           afterGap := false, inbox := [], starts := 0 }

def Rule.settings (r : Rule) : Rule :=
  { r with state := .off, runCount := 0, previous := none, asserts := 0, lastAssert := none,
           inbox := [] }

def Ring.settings (r : Ring) : Ring :=
  { r with dropped := 0, lost := 0, stream := StreamState.reset, snapshot := SnapshotState.reset,
           inbox := [], freezes := [] }

/-- The settings of the four tables that name one another. -/
structure Settings where
  channels : Table Channel 64
  slots : Table Slot 16
  rules : Table Rule 32
  rings : Table Ring 8

def State.settings (s : State) : Settings where
  channels := s.classifier.channels.map Channel.settings
  slots := s.slots.map Slot.settings
  rules := s.rules.map Rule.settings
  rings := s.rings.map Ring.settings

/-- Two states have the same settings exactly when their entries do, one by one. -/
theorem State.settings_eq_iff {s t : State} :
    t.settings = s.settings ↔
      (∀ c, (t.channel c).settings = (s.channel c).settings)
      ∧ (∀ k, (t.slots.get k).settings = (s.slots.get k).settings)
      ∧ (∀ k, (t.rules.get k).settings = (s.rules.get k).settings)
      ∧ (∀ k, (t.rings.get k).settings = (s.rings.get k).settings) := by
  constructor
  · intro h
    simp only [State.settings, Settings.mk.injEq] at h
    obtain ⟨hc, hs, hr, hg⟩ := h
    refine ⟨fun c => ?_, fun k => ?_, fun k => ?_, fun k => ?_⟩
    · simpa [State.channel] using congrArg (·.get c) hc
    · simpa using congrArg (·.get k) hs
    · simpa using congrArg (·.get k) hr
    · simpa using congrArg (·.get k) hg
  · rintro ⟨hc, hs, hr, hg⟩
    simp only [State.settings, Settings.mk.injEq]
    refine ⟨Table.ext_get fun c => ?_, Table.ext_get fun k => ?_, Table.ext_get fun k => ?_,
      Table.ext_get fun k => ?_⟩
    · rw [Table.get_map, Table.get_map]; exact hc c
    · simpa using hs k
    · simpa using hr k
    · simpa using hg k

/-! ### Updates that keep the settings -/

theorem State.settings_setSlot {s : State} {k : Fin 16} {y : Slot}
    (h : y.settings = (s.slots.get k).settings) : (s.setSlot k y).settings = s.settings := by
  refine State.settings_eq_iff.mpr ⟨fun _ => rfl, fun j => ?_, fun _ => rfl, fun _ => rfl⟩
  simp only [State.setSlot, Table.get_set]
  split
  · next hj => rw [h, hj]
  · rfl

theorem State.settings_setRule {s : State} {k : Fin 32} {y : Rule}
    (h : y.settings = (s.rules.get k).settings) : (s.setRule k y).settings = s.settings := by
  refine State.settings_eq_iff.mpr ⟨fun _ => rfl, fun _ => rfl, fun j => ?_, fun _ => rfl⟩
  simp only [State.setRule, Table.get_set]
  split
  · next hj => rw [h, hj]
  · rfl

theorem State.settings_setRing {s : State} {k : Fin 8} {y : Ring}
    (h : y.settings = (s.rings.get k).settings) : (s.setRing k y).settings = s.settings := by
  refine State.settings_eq_iff.mpr ⟨fun _ => rfl, fun _ => rfl, fun _ => rfl, fun j => ?_⟩
  simp only [State.setRing, Table.get_set]
  split
  · next hj => rw [h, hj]
  · rfl

/-- What the sources offer is no setting (R16, R20, R34). -/
theorem OnlyOffered.settings {s t : State} (h : OnlyOffered s t) : t.settings = s.settings := by
  refine State.settings_eq_iff.mpr ⟨fun c => ?_, fun k => ?_, fun k => ?_, fun k => ?_⟩
  · rw [h.channels c]; rfl
  · rw [h.slots k]; rfl
  · rw [h.rules k]; rfl
  · rw [h.rings k]; rfl

@[simp] theorem State.settings_setPort (s : State) (p : PortId) (x : Port) :
    (s.setPort p x).settings = s.settings := by
  cases p <;> rfl

@[simp] theorem State.settings_chargeMalformed (s : State) (p : PortId) :
    (s.chargeMalformed p).settings = s.settings :=
  State.settings_setPort _ _ _

@[simp] theorem State.settings_tellOccupancy (s : State) (p : PortId) (x : OccupancyChange) :
    (s.tellOccupancy p x).settings = s.settings :=
  State.settings_setPort _ _ _

@[simp] theorem State.settings_tellLinkChange (s : State) (p : PortId) (x : LinkChange) :
    (s.tellLinkChange p x).settings = s.settings := by
  rw [State.tellLinkChange_eq]; rfl

@[simp] theorem State.settings_enterUp (s : State) (p : PortId) :
    (s.enterUp p).settings = s.settings :=
  (State.settings_tellLinkChange _ _ _).trans (State.settings_setPort _ _ _)

@[simp] theorem State.settings_leaveUp (s : State) (p : PortId) :
    (s.leaveUp p).settings = s.settings :=
  (State.settings_tellLinkChange _ _ _).trans (State.settings_setPort _ _ _)

@[simp] theorem State.settings_placeOb (s : State) (bytes : List Byte) :
    (s.placeOb bytes).settings = s.settings := by
  rcases s.placeOb_cases bytes with ⟨_, h⟩ | ⟨_, h⟩ <;> rw [h] <;> rfl

@[simp] theorem State.settings_arriveRequest (s : State) (payload : List Byte) :
    (s.arriveRequest payload).settings = s.settings := by
  rcases s.arriveRequest_cases payload with ⟨_, h⟩ | ⟨_, _, h⟩ | ⟨_, _, h⟩ <;> rw [h] <;> rfl

@[simp] theorem State.settings_handOn (s : State) (p : PortId) (bytes : List Byte) :
    (s.handOn p bytes).settings = s.settings := by
  cases p
  · simp only [State.handOn]; split <;> rfl
  · simp only [State.handOn]; split_ifs <;> simp

@[simp] theorem State.settings_takeFrame (s : State) (p : PortId) (bytes : List Byte) :
    (s.takeFrame p bytes).settings = s.settings := by
  simp only [State.takeFrame]; split_ifs <;> simp

@[simp] theorem State.settings_receiveFlow (s : State) (p : PortId) (paused : Bool) :
    (s.receiveFlow p paused).settings = s.settings := by
  simp only [State.receiveFlow]; split
  · simp
  · split_ifs <;> simp
  · rfl

/-- What a processed frame does to the whole part: it reaches the nodes, what is offered, the requests of
the event unit and the candidates (R13). -/
theorem State.settings_takeSampleFrame (s : State) (bytes : List Byte) :
    (s.takeSampleFrame bytes).settings = s.settings := by
  have track : ∀ (u : State) n q, (u.trackNode n q).settings = u.settings := by
    intro u n q
    simp only [State.trackNode]
    split
    · rfl
    · exact (State.placeMarks_onlyOffered _ _).settings.trans rfl
  have hand : ∀ (u : State) f kept, (u.handCandidate f kept).settings = u.settings := by
    intro u f kept
    simp only [State.handCandidate]; split <;> rfl
  simp only [State.takeSampleFrame]
  split
  · split_ifs
    · simp
    · rfl
    · rw [hand, (State.takeEntries_onlyOffered _ _ _).settings, track,
        (State.passBy_onlyOffered _ _).settings]
  · simp

/-! ### The slots, rules and rings -/

theorem State.settings_deliverOutput (s : State) (k : Fin 16) (r : OutputRecord) (b : Bool) :
    (s.deliverOutput k r b).settings = s.settings := by
  have h := (s.offerNext_onlyOffered k (.record r)).settings
  simp only [State.deliverOutput]; split
  · exact h
  · exact h

theorem Slot.settings_takeSample (x : Slot) (k : Fin 16) (v : Int) (i now : Nat) :
    (x.takeSample k v i now).1.settings = x.settings := by
  simp only [Slot.takeSample]; split
  · split <;> rfl
  · rfl
  · rfl

theorem State.settings_slotTakesSample {s : State} {k : Fin 16} {x : Slot} (v : Int) (i : Nat)
    (h : x.settings = (s.slots.get k).settings) :
    (s.slotTakesSample k x v i).settings = s.settings := by
  have hx := (x.settings_takeSample k v i s.timebase).trans h
  simp only [State.slotTakesSample]
  split
  · next y hy => rw [hy] at hx; exact State.settings_setSlot hx
  · next y r hy =>
    rw [hy] at hx
    exact (State.settings_deliverOutput _ _ _ _).trans (State.settings_setSlot hx)

theorem Slot.settings_afterMark (x : Slot) : x.afterMark.settings = x.settings := by
  simp only [Slot.afterMark]; split <;> rfl

theorem State.settings_slotTakesMark {s : State} {k : Fin 16} {x : Slot}
    (h : x.settings = (s.slots.get k).settings) :
    (s.slotTakesMark k x).settings = s.settings := by
  have hx := State.settings_setSlot (x.settings_afterMark.trans h)
  simp only [State.slotTakesMark]
  split
  · exact State.settings_setSlot h
  · rw [(State.offerNext_onlyOffered _ _ _).settings]
    split
    · exact hx
    · exact hx

theorem Slot.settings_afterStart (x : Slot) : x.afterStart.settings = x.settings := by
  simp only [Slot.afterStart]; split <;> rfl

theorem Rule.settings_stepValue (r : Rule) (v : Int) : (r.stepValue v).1.settings = r.settings := by
  simp only [Rule.stepValue]; split <;> rfl

@[simp] theorem State.settings_sendFreeze (s : State) (k : Fin 32) (g : Option (Fin 8)) :
    (s.sendFreeze k g).settings = s.settings := by
  cases g
  · rfl
  · exact State.settings_setRing rfl

@[simp] theorem State.settings_sendStart (s : State) (j : Option (Fin 16)) :
    (s.sendStart j).settings = s.settings := by
  cases j
  · rfl
  · exact State.settings_setSlot rfl

theorem State.settings_ruleTakesValue {s : State} {k : Fin 32} {r : Rule} (v : Int) (i : Nat)
    (h : r.settings = (s.rules.get k).settings) :
    (s.ruleTakesValue k r v i).settings = s.settings := by
  have hr := (r.settings_stepValue v).trans h
  simp only [State.ruleTakesValue]
  split
  · split
    · next y hy => rw [hy] at hr; exact State.settings_setRule hr
    · next y hy =>
      rw [hy] at hr
      have ha := State.settings_setRule
        (y := { y with asserts := bump32 y.asserts, lastAssert := some s.timebase }) hr
      simp only [State.ruleAsserts, State.settings_sendStart, State.settings_sendFreeze]
      split
      · exact ha
      · exact ha
    · next y hy =>
      rw [hy] at hr
      simp only [State.ruleReleases]
      split <;> exact State.settings_setRule hr
  · exact State.settings_setRule h

theorem Ring.settings_closeHalf (r : Ring) (k : Fin 8) (h : HalfId) (now : Nat) :
    (r.closeHalf k h now).1.settings = r.settings := by
  simp only [Ring.closeHalf]; split <;> rfl

theorem Ring.settings_takeWords (r : Ring) (k : Fin 8) (ws : List Int) (now : Nat) :
    (r.takeWords k ws now).1.settings = r.settings := by
  simp only [Ring.takeWords]
  split
  · split
    · simp only [Ring.streamTakes]
      split
      · rfl
      · rfl
      · split
        · rfl
        · exact Ring.settings_closeHalf _ _ _ _
    · simp only [Ring.snapshotTakes]
      split
      · rfl
      · split <;> rfl
      · rfl
  · rfl

theorem Ring.settings_takeMark (r : Ring) : r.takeMark.settings = r.settings := by
  simp only [Ring.takeMark]
  split
  · split <;> rfl
  · rfl

theorem State.settings_ringTakesFreeze {s : State} {k : Fin 8} {r : Ring} (t : Trigger)
    (h : r.settings = (s.rings.get k).settings) :
    (s.ringTakesFreeze k r t).settings = s.settings := by
  have hf : (r.takeFreeze k t s.timebase).1.settings = r.settings := by
    simp only [Ring.takeFreeze]; split <;> rfl
  simp only [State.ringTakesFreeze]
  split
  · exact State.settings_setRing (hf.trans h)
  · exact State.settings_setRing h

/-! ### The readout engine and the scheduler -/

theorem Ring.settings_claimPart (r : Ring) (part : RingPart) :
    (r.claimPart part).settings = r.settings := by
  simp only [Ring.claimPart]; split <;> rfl

theorem State.settings_givePart (s : State) (x : ReadoutRecord) (done : Bool) :
    (s.givePart x done).settings = s.settings := by
  refine State.settings_setRing ?_
  simp only [Ring.givePart]; split <;> rfl

@[simp] theorem State.settings_placeTerminator (s : State) :
    s.placeTerminator.settings = s.settings := by
  rcases s.placeTerminator_cases with h | ⟨_, _, _, _, _, h⟩
  · rw [h]
  · rw [h]; rfl

theorem State.settings_produceOne {s t : State} (h : s.produceOne = some t) :
    t.settings = s.settings := by
  rcases State.produceOne_cases h with rfl | ⟨_, _, _, _, _, _, rfl⟩
  · rfl
  · rfl

theorem State.settings_examineEngine {s t : State} (h : s.examineEngine = some t) :
    t.settings = s.settings :=
  State.examineEngine_keeps (P := fun u => u.settings = s.settings)
    (fun u hu => (State.settings_placeTerminator u).trans hu)
    (fun _ _ hu h => (State.settings_produceOne h).trans hu) rfl h

theorem State.settings_engineGranted (s : State) (f : ReadoutFrame) :
    (s.engineGranted f).settings = s.settings := by
  simp only [State.engineGranted]
  split
  · split
    · exact State.settings_givePart s _ true
    · rfl
  · split <;> rfl
  · rfl

theorem State.settings_readoutLinkLost (s : State) : s.readoutLinkLost.settings = s.settings := by
  simp only [State.readoutLinkLost]
  split
  · exact State.settings_givePart s _ false
  · rfl
  · rfl

theorem State.settings_abortReadout (s : State) (x : ReadoutRecord) :
    (s.abortReadout x).settings = s.settings :=
  (State.settings_placeTerminator _).trans
    ((State.settings_givePart { s with egress := _ } x false).trans rfl)

theorem State.settings_offerFw (s : State) (bytes : List Byte) :
    (s.offerFw bytes).settings = s.settings := by
  rcases s.offerFw_cases bytes with ⟨_, h⟩ | ⟨_, _, h⟩ | ⟨_, _, h⟩ <;> rw [h] <;> rfl

theorem State.settings_closeReduced (s : State) (records : List OutputRecord) :
    (s.closeReduced records).settings = s.settings := by
  rcases s.closeReduced_cases records with ⟨_, h⟩ | ⟨_, h⟩ <;> rw [h] <;> rfl

theorem State.settings_assemble (s : State) (r : OutputRecord) :
    (s.assemble r).settings = s.settings := by
  simp only [State.assemble]
  split_ifs
  · rfl
  · exact State.settings_closeReduced _ _
  · rfl
  · rfl

theorem State.settings_grant {s t : State} {c : Claimant} (h : s.grant c = some t) :
    t.settings = s.settings := by
  cases c with
  | mr => cases h; simp only [State.grantMr]; split <;> rfl
  | ev => cases h; rfl
  | fw => cases h; simp only [State.grantFw]; split <;> rfl
  | dt =>
    simp only [State.grant, State.grantDt] at h
    split at h
    · split at h
      · exact (State.settings_examineEngine h).trans (State.settings_engineGranted _ _)
      · exact (State.settings_examineEngine h).trans rfl
    · cases h; rfl

end Sys2Proof.Machine

/-! ## The links between the tables stay sound (O6) -/

namespace Sys2Proof

open Sys2Proof.Machine

/-! ### What a request command can do -/

/-- A reply that needs no execution: one without results, or the cached one (R128 stages 2, 3 and 5). -/
def ReadyReply (s : State) (r : Reply) : Prop :=
  r.results = [] ∨ ∃ tag c, s.management.cache.get tag = some c ∧ c.reply = r

/-- Every outcome of stages 2 to 6 of R128: a ready reply that is only placed, or the answer of the
execution. -/
theorem Machine.State.serve_cases {s t : State} {q : Request} {good : Bool}
    {run : State → Option Answer} (h : s.serve q good run = some t) :
    (∃ r, ReadyReply s r ∧ t = repliedOnly s q r)
      ∨ ∃ status results u, run s = some (status, results, u) ∧ t = answered u q status results := by
  have hb : ReadyReply s (q.reply .badLength []) := .inl rfl
  simp only [State.serve] at h
  split at h
  · cases h; exact .inl ⟨_, hb, rfl⟩
  · split at h
    · next r hr =>
      cases h
      refine .inl ⟨r, .inr ?_, rfl⟩
      simp only [State.cachedFor] at hr
      split at hr
      · next c hc =>
        split at hr
        · cases hr; exact ⟨_, c, hc, rfl⟩
        · cases hr
      · cases hr
    · split at h
      · simp only [Option.map_eq_some_iff] at h
        obtain ⟨⟨status, results, u⟩, hu, rfl⟩ := h
        exact .inr ⟨status, results, u, hu, rfl⟩
      · cases h; exact .inl ⟨_, hb, rfl⟩

/-- The same of a request command, which changes nothing where its request is not being executed. -/
theorem Machine.State.request_next {s t : State} {code : Nat} {run : List Byte → State → Option Answer}
    (h : s.request code run = .next t) :
    t = s ∨ (∃ q r, ReadyReply s r ∧ t = repliedOnly s q r)
      ∨ ∃ q status results u, run q.args s = some (status, results, u)
        ∧ t = answered u q status results := by
  simp only [State.request] at h
  split at h
  · next q _ =>
    split at h
    · rcases State.serve_cases (captureOutcome_eq_next.mp h) with ⟨r, hr⟩ | hu
      · exact .inr (.inl ⟨q, r, hr⟩)
      · exact .inr (.inr ⟨q, hu⟩)
    · cases h; exact .inl rfl
  · cases h; exact .inl rfl

/-- The same of a request that several blocks take part in, with one block's share as one event. -/
theorem Machine.State.gather_next {s t : State} {code : Nat} {blocks : List Block}
    {work : Block → State → State} {answer : State → Answer}
    (h : s.gather code blocks work answer = .next t) :
    t = s ∨ (∃ q r, ReadyReply s r ∧ t = repliedOnly s q r)
      ∨ (∃ b, t = { s.takeShare work b with choices := s.choices + 1 })
      ∨ ∃ q, t = answered (answer s).2.2 q (answer s).1 (answer s).2.1 := by
  simp only [State.gather] at h
  split at h
  · next b _ _ => cases h; exact .inr (.inr (.inl ⟨b, rfl⟩))
  · rcases State.request_next h with ht | ht | ⟨q, status, results, u, hu, rfl⟩
    · exact .inl ht
    · exact .inr (.inl ht)
    · refine .inr (.inr (.inr ⟨q, ?_⟩))
      rw [Option.some.inj hu]

namespace Machine

@[simp] theorem State.settings_repliedOnly (s : State) (q : Request) (r : Reply) :
    (repliedOnly s q r).settings = s.settings := by
  rw [repliedOnly_eq]; rfl

@[simp] theorem State.settings_answered (s : State) (q : Request) (status : Status)
    (results : List Byte) : (answered s q status results).settings = s.settings := by
  rw [answered_eq]; rfl

theorem State.settings_request {s t : State} {code : Nat} {run : List Byte → State → Option Answer}
    (h : s.request code run = .next t)
    (hr : ∀ args status results u, run args s = some (status, results, u) → u.settings = s.settings) :
    t.settings = s.settings := by
  rcases State.request_next h with rfl | ⟨q, r, _, rfl⟩ | ⟨q, status, results, u, hu, rfl⟩
  · rfl
  · simp
  · rw [State.settings_answered]; exact hr _ _ _ _ hu

theorem State.settings_gather {s t : State} {code : Nat} {blocks : List Block}
    {work : Block → State → State} {answer : State → Answer}
    (h : s.gather code blocks work answer = .next t)
    (hw : ∀ b, (work b s).settings = s.settings) (ha : (answer s).2.2.settings = s.settings) :
    t.settings = s.settings := by
  rcases State.gather_next h with rfl | ⟨q, r, _, rfl⟩ | ⟨b, rfl⟩ | ⟨q, rfl⟩
  · rfl
  · simp
  · exact hw b
  · rw [State.settings_answered]; exact ha

theorem State.settings_statusShare (b : Block) (s : State) :
    (State.statusShare b s).settings = s.settings := by
  cases b <;> rfl

theorem State.settings_clearShare (b : Block) (s : State) :
    (State.clearShare b s).settings = s.settings := by
  cases b <;> rfl

theorem Slot.settings_restarted (x : Slot) : x.restarted.settings = x.settings := by
  simp only [Slot.restarted]; split <;> rfl

theorem Rule.settings_restarted (r : Rule) : r.restarted.settings = r.settings := by
  simp only [Rule.restarted]; split <;> rfl

theorem Ring.settings_restarted (r : Ring) : r.restarted.settings = r.settings := by
  simp only [Ring.restarted, Ring.begun]; split_ifs
  · split <;> rfl
  · rfl

/-- A RESTART keeps every written field and enabled flag (R10, R24, R43, R68). -/
theorem State.settings_restartShare (b : Block) (s : State) :
    (State.restartShare b s).settings = s.settings := by
  refine State.settings_eq_iff.mpr ⟨fun c => ?_, fun k => ?_, fun k => ?_, fun k => ?_⟩
  · cases b with
    | classifier =>
      simp only [State.restartShare, State.channel, Classifier.restarted, Table.get_map]; rfl
    | _ => rfl
  · cases b with
    | reduction => simp only [State.restartShare, Table.get_map]; exact Slot.settings_restarted _
    | _ => rfl
  · cases b with
    | watch => simp only [State.restartShare, Table.get_map]; exact Rule.settings_restarted _
    | _ => rfl
  · cases b with
    | capture => simp only [State.restartShare, Table.get_map]; exact Ring.settings_restarted _
    | _ => rfl

/-! ### The requests -/

theorem State.settings_readRing {s u : State} {k : Fin 8} {part : RingPart} {status : Status}
    {results : List Byte} (h : s.readRing k part = some (status, results, u)) :
    u.settings = s.settings := by
  simp only [State.readRing] at h
  split at h
  · simp only [Option.map_eq_some_iff] at h
    obtain ⟨v, hv, heq⟩ := h
    cases heq
    refine (State.settings_examineEngine hv).trans ?_
    exact State.settings_setRing (s := s) (Ring.settings_claimPart _ part)
  · cases h; rfl

/-- An operation that keeps the settings at every entry keeps them at the entry an index names. -/
theorem State.settings_atIndex {n : Nat} {i : Option (Fin n)} {s : State} {op : Fin n → Status × State}
    (h : ∀ k, (op k).2.settings = s.settings) : (atIndex i s op).2.settings = s.settings := by
  rcases atIndex_cases i s op with ⟨k, _, hk⟩ | ⟨_, hk⟩ <;> rw [hk]
  exact h k

theorem State.settings_releaseHalf (s : State) (k : Fin 8) (h : HalfId) :
    (s.releaseHalf k h).2.settings = s.settings := by
  simp only [State.releaseHalf]
  split_ifs
  · rfl
  · rfl
  · split
    · rfl
    · rfl
    · rfl
    · exact State.settings_setRing rfl

theorem State.settings_flushRing (s : State) (k : Fin 8) :
    (s.flushRing k).2.settings = s.settings := by
  simp only [State.flushRing]
  split_ifs
  · rfl
  · rfl
  · split
    · split
      · rfl
      · exact State.settings_setRing (s := s) (Ring.settings_closeHalf _ _ _ _)
    · rfl

theorem State.settings_freezeRing (s : State) (k : Fin 8) :
    (s.freezeRing k).2.settings = s.settings := by
  simp only [State.freezeRing]
  split_ifs
  · rfl
  · rfl
  · rfl
  · exact State.settings_ringTakesFreeze _ rfl

theorem State.settings_rearmRing (s : State) (k : Fin 8) :
    (s.rearmRing k).2.settings = s.settings := by
  simp only [State.rearmRing]
  split_ifs
  · rfl
  · rfl
  · split
    · rfl
    · exact State.settings_setRing rfl
    · rfl

theorem State.settings_startSlot (s : State) (k : Fin 16) :
    (s.startSlot k).2.settings = s.settings := by
  simp only [State.startSlot]
  split
  · exact State.settings_setSlot (Slot.settings_afterStart _)
  · rfl

/-- What forgets the nodes leaves the channels (R21). -/
theorem State.settings_unseeNodes (s : State) : s.unseeNodes.settings = s.settings := rfl

/-- The commands that may change the settings: a hard reset, and the requests that write, enable and
disable an entry. -/
def changesSettings : Instr → Bool
  | .hardReset _ _ => true
  | .writeEntry => true
  | .enable => true
  | .disable => true
  | _ => false

/-- Every other command keeps the settings of all four tables. -/
theorem exec_keeps_settings {i : Instr} {s t : State} (hi : changesSettings i = false)
    (h : exec i s = .next t) : t.settings = s.settings := by
  cases i with
  | hardReset | writeEntry | enable | disable => cases hi
  | initialisationComplete =>
    simp only [exec, execInitialisationComplete] at h
    split at h <;> cases h <;> rfl
  | receiveTrain p heard =>
    simp only [exec, execReceiveTrain] at h
    split at h
    · cases h; rfl
    · split at h <;> cases h <;> simp
    · split at h <;> cases h <;> simp
  | undecodableSymbol p =>
    simp only [exec, execUndecodableSymbol] at h
    split at h <;> cases h <;> simp
  | receiveHold p => cases h; simp
  | receiveGo p => cases h; simp
  | lossOfLock p =>
    simp only [exec, execLossOfLock] at h
    split at h <;> cases h <;> simp
  | frameReceived p bytes =>
    simp only [exec, execFrameReceived] at h
    split at h <;> cases h <;> simp
  | holdSentChange p =>
    simp only [exec, execHoldSentChange] at h
    split at h <;> cases h <;> simp
  | flowSymbolRepeat p =>
    simp only [exec, execFlowSymbolRepeat] at h
    split at h <;> cases h <;> simp
  | sampleFrameTaken =>
    simp only [exec, execSampleFrameTaken] at h
    split at h <;> cases h
    · exact (State.settings_takeSampleFrame _ _).trans rfl
    · rfl
  | fPortLeavingUpClassifier =>
    simp only [exec, execFPortLeavingUpClassifier] at h
    split at h <;> obtain rfl := Host.Outcome.next.inj h
    · rw [State.settings_unseeNodes, (State.placeMarks_onlyOffered _ _).settings,
        (State.passBy_onlyOffered _ _).settings]
      rfl
    · rfl
  | fwPlace way =>
    cases way <;> simp only [exec, execFwPlace] at h
    · split at h <;> cases h
      · exact (State.settings_offerFw _ _).trans rfl
      · rfl
    · split at h
      · split at h <;> cases h
        · exact (State.settings_offerFw _ _).trans rfl
        · rfl
      · cases h; rfl
  | slotTakeSample k =>
    simp only [exec, execSlotTakeSample] at h
    split at h <;> cases h
    · exact State.settings_slotTakesSample _ _ rfl
    · rfl
  | slotTakeGapMark k =>
    simp only [exec, execSlotTakeGapMark] at h
    split at h <;> cases h
    · exact State.settings_slotTakesMark rfl
    · rfl
  | slotStart k =>
    simp only [exec, execSlotStart] at h
    split at h <;> cases h
    · rfl
    · exact State.settings_setSlot (Slot.settings_afterStart _)
  | ruleTakeValue k =>
    simp only [exec, execRuleTakeValue] at h
    split at h
    · cases h; rfl
    · split at h <;> cases h
      · exact State.settings_ruleTakesValue _ _ rfl
      · rfl
  | ruleTakeGapMark k =>
    simp only [exec, execRuleTakeGapMark] at h
    split at h <;> cases h
    · refine State.settings_setRule ?_
      split <;> rfl
    · rfl
  | ringTakeItem k =>
    simp only [exec, execRingTakeItem] at h
    split at h
    · cases h; rfl
    · cases h; rfl
    · obtain ⟨_, rfl⟩ := State.ringTakesWords_eq_some (captureOutcome_eq_next.mp h)
      exact State.settings_setRing (s := s) (Ring.settings_takeWords _ _ _ _)
  | ringTakeGapMark k =>
    simp only [exec, execRingTakeGapMark] at h
    split at h <;> cases h
    · exact State.settings_setRing (Ring.settings_takeMark _)
    · rfl
  | ringFreeze k rule =>
    simp only [exec, execRingFreeze] at h
    split at h <;> cases h
    · exact State.settings_ringTakesFreeze _ rfl
    · rfl
  | assemblerTakeRecord k =>
    simp only [exec, execAssemblerTakeRecord] at h
    split at h <;> cases h
    · exact (State.settings_assemble _ _).trans rfl
    · rfl
  | reducedHoldExpiry =>
    simp only [exec, execReducedHoldExpiry] at h
    split at h <;> cases h
    · exact State.settings_closeReduced _ _
    · rfl
  | eventEnqueue r =>
    simp only [exec, execEventEnqueue] at h
    split at h <;> cases h <;> rfl
  | retransmitTimeout =>
    simp only [exec, execRetransmitTimeout] at h
    split at h <;> cases h <;> rfl
  | deliverySuspend =>
    simp only [exec, execDeliverySuspend] at h
    split at h <;> cases h <;> rfl
  | deliveryResume =>
    simp only [exec, execDeliveryResume] at h
    split at h <;> cases h <;> rfl
  | arbiterGrant =>
    simp only [exec, execArbiterGrant] at h
    split at h
    · split at h
      · exact State.settings_grant (captureOutcome_eq_next.mp h)
      · cases h; rfl
    · cases h; rfl
  | readoutFrameProduce => exact State.settings_produceOne (captureOutcome_eq_next.mp h)
  | terminatingFramePlace => cases h; simp
  | obSend =>
    simp only [exec, execObSend] at h
    split at h
    · split at h <;> cases h <;> rfl
    · cases h; rfl
  | cPortLeavingUpEgress =>
    simp only [exec, execCPortLeavingUpEgress] at h
    split at h <;> cases h
    · exact (State.settings_readoutLinkLost _).trans rfl
    · rfl
  | cPortComingUpEgress =>
    simp only [exec, execCPortComingUpEgress] at h
    split at h
    · split at h
      · exact (State.settings_examineEngine (captureOutcome_eq_next.mp h)).trans rfl
      · cases h; rfl
    · cases h; rfl
  | fPortLeavingUpEgress =>
    simp only [exec, execFPortLeavingUpEgress] at h
    split at h <;> cases h <;> rfl
  | ident =>
    simp only [exec, execIdent] at h
    exact State.settings_request h (fun _ _ _ _ hu => by cases hu; rfl)
  | readEntry =>
    simp only [exec, execReadEntry] at h
    refine State.settings_request h fun args _ _ u hu => ?_
    split at hu <;> cases hu <;> rfl
  | readStatus => exact State.settings_gather h (State.settings_statusShare · s) rfl
  | clearCounters => exact State.settings_gather h (State.settings_clearShare · s) rfl
  | setTime =>
    simp only [exec, execSetTime] at h
    exact State.settings_request h (fun _ _ _ _ hu => by cases hu; rfl)
  | readRing =>
    simp only [exec, execReadRing] at h
    refine State.settings_request h fun args _ _ u hu => ?_
    split at hu
    · exact State.settings_readRing hu
    · cases hu; rfl
  | abortRead =>
    simp only [exec, execAbortRead] at h
    refine State.settings_request h fun args _ _ u hu => ?_
    split at hu <;> cases hu
    · exact State.settings_abortReadout _ _
    · rfl
  | releaseHalf =>
    simp only [exec, execReleaseHalf] at h
    refine State.settings_request h fun args _ _ u hu => ?_
    split at hu <;> cases hu
    · exact State.settings_releaseHalf _ _ _
    · rfl
  | flushRing =>
    simp only [exec, execFlushRing] at h
    refine State.settings_request h fun args _ _ u hu => ?_
    cases hu; exact State.settings_atIndex (State.settings_flushRing s)
  | freezeRing =>
    simp only [exec, execFreezeRing] at h
    refine State.settings_request h fun args _ _ u hu => ?_
    cases hu; exact State.settings_atIndex (State.settings_freezeRing s)
  | rearmRing =>
    simp only [exec, execRearmRing] at h
    refine State.settings_request h fun args _ _ u hu => ?_
    cases hu; exact State.settings_atIndex (State.settings_rearmRing s)
  | startSlot =>
    simp only [exec, execStartSlot] at h
    refine State.settings_request h fun args _ _ u hu => ?_
    cases hu; exact State.settings_atIndex (State.settings_startSlot s)
  | eventAck =>
    simp only [exec, execEventAck] at h
    refine State.settings_request h fun args _ _ u hu => ?_
    split at hu <;> cases hu <;> rfl
  | eventResync =>
    simp only [exec, execEventResync] at h
    refine State.settings_request h fun args _ _ u hu => ?_
    split at hu <;> cases hu <;> rfl
  | restart =>
    refine State.settings_gather h (State.settings_restartShare · s) ?_
    exact State.settings_restartShare .events s
  | unknownCode =>
    simp only [exec, execUnknownCode] at h
    split at h
    · split at h
      · cases h; rfl
      · rcases State.serve_cases (captureOutcome_eq_next.mp h) with ⟨r, _, rfl⟩ | ⟨_, _, u, hu, rfl⟩
        · simp
        · cases hu; simp
    · cases h; rfl
  | frameSendComplete p =>
    simp only [exec, execFrameSendComplete] at h
    split at h <;> cases h <;> simp
  | requestTooShort =>
    simp only [exec, execRequestTooShort] at h
    split at h
    · split at h <;> cases h
      · exact State.settings_chargeMalformed s .c
      · rfl
    · cases h; rfl

end Machine

end Sys2Proof

/-! ### What the checks of table access say -/

namespace Sys2Proof.Machine

theorem State.keyTaken_iff (s : State) (c : Fin 64) : s.keyTaken c = true ↔
    ∃ d, d ≠ c ∧ (s.channel d).enabled = true ∧ (s.channel d).node = (s.channel c).node
      ∧ (s.channel d).input = (s.channel c).input := by
  simp [State.keyTaken, and_assoc]

theorem State.rangeTaken_iff (s : State) (k : Fin 8) : s.rangeTaken k = true ↔
    ∃ j, j ≠ k ∧ (s.rings.get j).enabled = true
      ∧ (s.rings.get j).overlaps (s.rings.get k) = true := by
  simp [State.rangeTaken, and_assoc]

/-- The source an index names is the channel with it, or the slot with it (R44, R69). -/
theorem namedSource_eq_channel {kind : SourceKind} {index c : Fin 64} :
    namedSource kind index = some (.channel c) ↔ kind = .channel ∧ index = c := by
  cases kind with
  | channel => simp [namedSource]
  | slot => simp only [namedSource]; split <;> simp

theorem namedSource_eq_slot {kind : SourceKind} {index : Fin 64} {k : Fin 16} :
    namedSource kind index = some (.slot k) ↔ kind = .slot ∧ index.val = k.val := by
  cases kind with
  | channel => simp [namedSource]
  | slot =>
    simp only [namedSource]
    split
    · simp [Fin.ext_iff]
    · next h => simp; omega

theorem namedSource_eq_none {kind : SourceKind} {index : Fin 64} :
    namedSource kind index = none ↔ kind = .slot ∧ 16 ≤ index.val := by
  cases kind with
  | channel => simp [namedSource]
  | slot => simp only [namedSource]; split <;> simp <;> omega

theorem State.sourceEnabled_iff (s : State) (kind : SourceKind) (index : Fin 64) :
    s.sourceEnabled (namedSource kind index) = true ↔ SourceOn s kind index := by
  cases kind with
  | channel => simp [namedSource, State.sourceEnabled, SourceOn]
  | slot =>
    simp only [namedSource, SourceOn]
    split
    · next h =>
      simp only [State.sourceEnabled, reduceCtorEq, false_and, false_or, true_and]
      constructor
      · exact fun he => ⟨_, rfl, he⟩
      · rintro ⟨j, hj, he⟩
        have : j = ⟨index.val, h⟩ := Fin.ext hj
        exact this ▸ he
    · next h =>
      simp only [State.sourceEnabled, Bool.false_eq_true, reduceCtorEq, false_and, false_or,
        true_and, false_iff]
      rintro ⟨j, hj, _⟩
      omega

theorem State.freezeTargetGood_iff (s : State) (r : Rule) :
    s.freezeTargetGood r.freezeRing = true ↔ FreezeRingOn s r := by
  cases h : r.freezeRing <;> simp [State.freezeTargetGood, FreezeRingOn, h]

theorem State.startTargetGood_iff (s : State) (r : Rule) :
    s.startTargetGood r.startSlot = true ↔ StartSlotOn s r := by
  cases h : r.startSlot <;> simp [State.startTargetGood, StartSlotOn, h]

theorem Rule.consistent_iff (r : Rule) : r.consistent = true ↔ ConsistentRule r := by
  cases h : r.criterion <;> simp [Rule.consistent, ConsistentRule, h]

theorem State.channelHasConsumer_iff (s : State) (c : Fin 64) : s.channelHasConsumer c = true ↔
    (∃ k, (s.slots.get k).enabled = true ∧ (s.slots.get k).channel = c)
      ∨ (∃ k, (s.rules.get k).enabled = true ∧ (s.rules.get k).sourceKind = .channel
          ∧ (s.rules.get k).sourceIndex = c)
      ∨ ∃ k, (s.rings.get k).enabled = true ∧ (s.rings.get k).sourceKind = .channel
          ∧ (s.rings.get k).sourceIndex = c := by
  simp [State.channelHasConsumer, Table.any_eq_true, Slot.consumes, Slot.names, Rule.consumes,
    Rule.names, Rule.source, Ring.consumes, Ring.names, Ring.source, namedSource_eq_channel, or_assoc,
    eq_comm (a := c)]

theorem State.slotHasDependent_iff (s : State) (k : Fin 16) : s.slotHasDependent k = true ↔
    (∃ j, (s.rules.get j).enabled = true ∧ ((s.rules.get j).startSlot = some k
        ∨ (s.rules.get j).sourceKind = .slot ∧ (s.rules.get j).sourceIndex.val = k.val))
      ∨ ∃ j, (s.rings.get j).enabled = true ∧ (s.rings.get j).sourceKind = .slot
          ∧ (s.rings.get j).sourceIndex.val = k.val := by
  simp only [State.slotHasDependent, Bool.or_eq_true, Table.any_eq_true, Rule.consumes, Rule.names,
    Rule.source, Ring.consumes, Ring.names, Ring.source, Bool.and_eq_true, decide_eq_true_eq,
    namedSource_eq_slot, and_or_left, exists_or]
  rw [or_comm (b := ∃ i, _ ∧ (s.rules.get i).startSlot = some k)]

theorem State.ringHasFreezer_iff (s : State) (k : Fin 8) : s.ringHasFreezer k = true ↔
    ∃ j, (s.rules.get j).enabled = true ∧ (s.rules.get j).freezeRing = some k := by
  simp [State.ringHasFreezer, Table.any_eq_true]

/-! ### What entries with the same settings share -/

theorem Channel.of_settings {x y : Channel} (h : y.settings = x.settings) :
    y.enabled = x.enabled ∧ y.node = x.node ∧ y.input = x.input :=
  ⟨(congrArg Channel.enabled h :), (congrArg Channel.node h :), (congrArg Channel.input h :)⟩

theorem Slot.of_settings {x y : Slot} (h : y.settings = x.settings) :
    y.enabled = x.enabled ∧ y.channel = x.channel ∧ y.trigger = x.trigger :=
  ⟨(congrArg Slot.enabled h :), (congrArg Slot.channel h :), (congrArg Slot.trigger h :)⟩

theorem Rule.of_settings {x y : Rule} (h : y.settings = x.settings) :
    y.enabled = x.enabled ∧ y.sourceKind = x.sourceKind ∧ y.sourceIndex = x.sourceIndex
      ∧ y.freezeRing = x.freezeRing ∧ y.startSlot = x.startSlot ∧ y.criterion = x.criterion
      ∧ y.low = x.low ∧ y.high = x.high ∧ y.hyst = x.hyst :=
  ⟨(congrArg Rule.enabled h :), (congrArg Rule.sourceKind h :), (congrArg Rule.sourceIndex h :),
    (congrArg Rule.freezeRing h :), (congrArg Rule.startSlot h :), (congrArg Rule.criterion h :),
    (congrArg Rule.low h :), (congrArg Rule.high h :), (congrArg Rule.hyst h :)⟩

theorem Ring.of_settings {x y : Ring} (h : y.settings = x.settings) :
    y.enabled = x.enabled ∧ y.base = x.base ∧ y.length = x.length ∧ y.mode = x.mode
      ∧ y.sourceKind = x.sourceKind ∧ y.sourceIndex = x.sourceIndex :=
  ⟨(congrArg Ring.enabled h :), (congrArg Ring.base h :), (congrArg Ring.length h :),
    (congrArg Ring.mode h :), (congrArg Ring.sourceKind h :), (congrArg Ring.sourceIndex h :)⟩

/-! ### A write keeps the bound fields of an enabled entry (R134 check 5) -/

/-- A mask that names no bound field names none of them. -/
theorem testBit_of_maskBound {t : TableId} {mask : Nat} (h : maskBound t mask = false) {k : Nat}
    (hk : t.bound.testBit k = true) : mask.testBit k = false := by
  have h0 : mask &&& t.bound = 0 := by simpa [maskBound] using h
  simpa [Nat.testBit_and, hk] using congrArg (·.testBit k) h0

/-- A field that the mask does not name is kept. -/
theorem field_eq_old {α : Type} {mask k : Nat} {old x : α} {new : Option α}
    (hk : mask.testBit k = false) (h : field mask k old new = some x) : x = old := by
  rcases field_eq_some h with ⟨hk', _⟩ | ⟨_, hx⟩
  · simp [hk] at hk'
  · exact hx

theorem Channel.write_bound {c y : Channel} {mask : Nat} {v : List Byte}
    (hm : maskBound .channel mask = false) (h : c.write mask v = some y) :
    y.node = c.node ∧ y.input = c.input := by
  simp only [Channel.write, Option.bind_eq_some_iff] at h
  obtain ⟨_, h0, _, h1, _, _, _, _, _, _, h⟩ := h
  cases h
  exact ⟨field_eq_old (testBit_of_maskBound hm rfl) h0,
    field_eq_old (testBit_of_maskBound hm rfl) h1⟩

theorem Slot.write_bound {x y : Slot} {mask : Nat} {v : List Byte}
    (hm : maskBound .slot mask = false) (h : x.write mask v = some y) :
    y.channel = x.channel ∧ y.trigger = x.trigger := by
  simp only [Slot.write, Option.bind_eq_some_iff] at h
  obtain ⟨_, h0, _, _, _, _, _, h3, _, _, _, _, h⟩ := h
  cases h
  exact ⟨field_eq_old (testBit_of_maskBound hm rfl) h0,
    field_eq_old (testBit_of_maskBound hm rfl) h3⟩

theorem Rule.write_bound {r y : Rule} {mask : Nat} {v : List Byte}
    (hm : maskBound .rule mask = false) (h : r.write mask v = some y) :
    y.sourceKind = r.sourceKind ∧ y.sourceIndex = r.sourceIndex ∧ y.freezeRing = r.freezeRing
      ∧ y.startSlot = r.startSlot := by
  simp only [Rule.write, Option.bind_eq_some_iff] at h
  obtain ⟨_, h0, _, h1, _, _, _, _, _, _, _, _, _, _, _, _, _, _, _, _, _, h10, _, h11, h⟩ := h
  cases h
  exact ⟨field_eq_old (testBit_of_maskBound hm rfl) h0,
    field_eq_old (testBit_of_maskBound hm rfl) h1, field_eq_old (testBit_of_maskBound hm rfl) h10,
    field_eq_old (testBit_of_maskBound hm rfl) h11⟩

theorem Ring.write_bound {r y : Ring} {mask : Nat} {v : List Byte}
    (hm : maskBound .ring mask = false) (h : r.write mask v = some y) :
    y.base = r.base ∧ y.length = r.length ∧ y.mode = r.mode ∧ y.sourceKind = r.sourceKind
      ∧ y.sourceIndex = r.sourceIndex := by
  simp only [Ring.write, Option.bind_eq_some_iff] at h
  obtain ⟨_, h0, _, h1, _, h2, _, h3, _, h4, _, _, _, _, _, _, h⟩ := h
  split at h
  · cases h
    exact ⟨field_eq_old (testBit_of_maskBound hm rfl) h0,
      field_eq_old (testBit_of_maskBound hm rfl) h1, field_eq_old (testBit_of_maskBound hm rfl) h2,
      field_eq_old (testBit_of_maskBound hm rfl) h3, field_eq_old (testBit_of_maskBound hm rfl) h4⟩
  · cases h

end Sys2Proof.Machine

/-! ### Each invariant of the links -/

namespace Sys2Proof

open Sys2Proof.Machine

/-- The four invariants of the tables' links together (R11, R25, R44, R45, R69). -/
def LinksSound (s : State) : Prop :=
  KeysDistinct s ∧ SourcesEnabled s ∧ RulesConsistent s ∧ RangesDisjoint s

/-- What is enabled in `s` is enabled in `t`, with the trigger and mode that a rule's targets must have. -/
structure StaysOn (s t : State) : Prop where
  channels : ∀ c, (s.channel c).enabled = true → (t.channel c).enabled = true
  slots : ∀ k, (s.slots.get k).enabled = true →
    (t.slots.get k).enabled = true ∧ (t.slots.get k).trigger = (s.slots.get k).trigger
  rings : ∀ k, (s.rings.get k).enabled = true →
    (t.rings.get k).enabled = true ∧ (t.rings.get k).mode = (s.rings.get k).mode

theorem StaysOn.source {s t : State} (h : StaysOn s t) {kind : SourceKind} {index : Fin 64}
    (hs : SourceOn s kind index) : SourceOn t kind index := by
  rcases hs with ⟨hk, he⟩ | ⟨hk, j, hj, he⟩
  · exact .inl ⟨hk, h.channels _ he⟩
  · exact .inr ⟨hk, j, hj, (h.slots j he).1⟩

theorem StaysOn.rule {s t : State} (h : StaysOn s t) {r : Rule}
    (hr : SourceOn s r.sourceKind r.sourceIndex ∧ FreezeRingOn s r ∧ StartSlotOn s r) :
    SourceOn t r.sourceKind r.sourceIndex ∧ FreezeRingOn t r ∧ StartSlotOn t r := by
  obtain ⟨hsrc, hf, hst⟩ := hr
  refine ⟨h.source hsrc, fun g hg => ?_, fun j hj => ?_⟩
  · obtain ⟨he, hm⟩ := hf g hg
    exact ⟨(h.rings g he).1, (h.rings g he).2.trans hm⟩
  · obtain ⟨he, ht⟩ := hst j hj
    exact ⟨(h.slots j he).1, (h.slots j he).2.trans ht⟩

/-- Each entry that is enabled in `t` was enabled in `s`, and has its bound fields from there. -/
structure BoundKept (s t : State) : Prop where
  channels : ∀ c, (t.channel c).enabled = true → (s.channel c).enabled = true
    ∧ (t.channel c).node = (s.channel c).node ∧ (t.channel c).input = (s.channel c).input
  slots : ∀ k, (t.slots.get k).enabled = true → (s.slots.get k).enabled = true
    ∧ (t.slots.get k).channel = (s.slots.get k).channel
  rules : ∀ k, (t.rules.get k).enabled = true → (s.rules.get k).enabled = true
    ∧ (t.rules.get k).sourceKind = (s.rules.get k).sourceKind
    ∧ (t.rules.get k).sourceIndex = (s.rules.get k).sourceIndex
    ∧ (t.rules.get k).freezeRing = (s.rules.get k).freezeRing
    ∧ (t.rules.get k).startSlot = (s.rules.get k).startSlot
  rings : ∀ k, (t.rings.get k).enabled = true → (s.rings.get k).enabled = true
    ∧ (t.rings.get k).base = (s.rings.get k).base ∧ (t.rings.get k).length = (s.rings.get k).length
    ∧ (t.rings.get k).sourceKind = (s.rings.get k).sourceKind
    ∧ (t.rings.get k).sourceIndex = (s.rings.get k).sourceIndex

theorem BoundKept.keysDistinct {s t : State} (h : BoundKept s t) (hs : KeysDistinct s) :
    KeysDistinct t := by
  intro c d hc hd hn hi
  obtain ⟨hc, hcn, hci⟩ := h.channels c hc
  obtain ⟨hd, hdn, hdi⟩ := h.channels d hd
  exact hs c d hc hd (hcn.symm.trans (hn.trans hdn)) (hci.symm.trans (hi.trans hdi))

theorem BoundKept.rangesDisjoint {s t : State} (h : BoundKept s t) (hs : RangesDisjoint s) :
    RangesDisjoint t := by
  intro j k hjk hj hk
  obtain ⟨hj, hjb, hjl, _⟩ := h.rings j hj
  obtain ⟨hk, hkb, hkl, _⟩ := h.rings k hk
  simpa [Ring.overlaps, hjb, hjl, hkb, hkl] using hs j k hjk hj hk

theorem BoundKept.sourcesEnabled {s t : State} (h : BoundKept s t) (on : StaysOn s t)
    (hs : SourcesEnabled s) : SourcesEnabled t := by
  obtain ⟨hslots, hrules, hrings⟩ := hs
  refine ⟨fun k hk => ?_, fun k hk => ?_, fun k hk => ?_⟩
  · obtain ⟨he, hc⟩ := h.slots k hk
    rw [hc]; exact on.channels _ (hslots k he)
  · obtain ⟨he, hkind, hi, hf, hst⟩ := h.rules k hk
    have := on.rule (hrules k he)
    simpa only [FreezeRingOn, StartSlotOn, hkind, hi, hf, hst] using this
  · obtain ⟨he, _, _, hkind, hi⟩ := h.rings k hk
    rw [hkind, hi]; exact on.source (hrings k he)

/-- The links are a matter of the settings alone. -/
theorem LinksSound.of_settings {s t : State} (h : t.settings = s.settings) (hs : LinksSound s) :
    LinksSound t := by
  obtain ⟨hc, hslot, hrule, hring⟩ := State.settings_eq_iff.mp h
  have hc := fun c => Channel.of_settings (hc c)
  have hslot := fun k => Slot.of_settings (hslot k)
  have hrule := fun k => Rule.of_settings (hrule k)
  have hring := fun k => Ring.of_settings (hring k)
  obtain ⟨hkeys, hsrc, hcons, hran⟩ := hs
  refine ⟨?_, ?_, ?_, ?_⟩
  · simpa only [KeysDistinct, hc] using hkeys
  · simpa only [SourcesEnabled, SourceOn, FreezeRingOn, StartSlotOn, hc, hslot, hrule, hring] using hsrc
  · simpa only [RulesConsistent, ConsistentRule, hrule] using hcons
  · simpa only [RangesDisjoint, Ring.overlaps, hring] using hran

/-- Where nothing is enabled there is no link (R5, R24, R43, R68). -/
theorem linksSound_resetWith (straps : Fin 16) : LinksSound (State.resetWith straps) := by
  refine ⟨fun c d hc => ?_, ⟨fun k hk => ?_, fun k hk => ?_, fun k hk => ?_⟩, fun k hk => ?_,
    fun j k _ hj => ?_⟩
  · rw [State.resetWith_channel] at hc; cases hc
  · rw [State.resetWith_slot] at hk; cases hk
  · rw [State.resetWith_rule] at hk; cases hk
  · rw [State.resetWith_ring] at hk; cases hk
  · rw [State.resetWith_rule] at hk; cases hk
  · rw [State.resetWith_ring] at hj; cases hj

end Sys2Proof

namespace Sys2Proof

open Sys2Proof.Machine

/-! ### WRITE_ENTRY keeps the links -/

/-- A write at one entry is checked, so an enabled entry keeps its bound fields (R134, R135): where each
entry of a table keeps its enabled flag and, while enabled, its bound fields, the links stay sound. -/
theorem LinksSound.of_bound {s t : State} (on : StaysOn s t) (bound : BoundKept s t)
    (hr : RulesConsistent t) (hs : LinksSound s) : LinksSound t := by
  obtain ⟨hkeys, hsrc, _, hran⟩ := hs
  exact ⟨bound.keysDistinct hkeys, bound.sourcesEnabled on hsrc, hr, bound.rangesDisjoint hran⟩

theorem StaysOn.refl (s : State) : StaysOn s s :=
  ⟨fun _ h => h, fun _ h => ⟨h, rfl⟩, fun _ h => ⟨h, rfl⟩⟩

theorem BoundKept.refl (s : State) : BoundKept s s :=
  ⟨fun _ h => ⟨h, rfl, rfl⟩, fun _ h => ⟨h, rfl⟩, fun _ h => ⟨h, rfl, rfl, rfl, rfl⟩,
    fun _ h => ⟨h, rfl, rfl, rfl, rfl⟩⟩

theorem LinksSound.setChannel {s : State} {c : Fin 64} {y : Channel} (hs : LinksSound s)
    (he : y.enabled = (s.channel c).enabled)
    (hb : (s.channel c).enabled = true →
      y.node = (s.channel c).node ∧ y.input = (s.channel c).input) : LinksSound (s.setChannel c y) := by
  refine hs.of_bound { StaysOn.refl s with channels := fun d hd => ?_ }
    { BoundKept.refl s with channels := fun d hd => ?_ } hs.2.2.1
  · rw [State.channel_setChannel]
    split
    · next h => subst h; exact he.trans hd
    · exact hd
  · rw [State.channel_setChannel] at hd ⊢
    split
    · next h => subst h; rw [if_pos rfl, he] at hd; exact ⟨hd, hb hd⟩
    · next h => rw [if_neg h] at hd; exact ⟨hd, rfl, rfl⟩

theorem LinksSound.setSlot {s : State} {k : Fin 16} {y : Slot} (hs : LinksSound s)
    (he : y.enabled = (s.slots.get k).enabled)
    (hb : (s.slots.get k).enabled = true →
      y.channel = (s.slots.get k).channel ∧ y.trigger = (s.slots.get k).trigger) :
    LinksSound (s.setSlot k y) := by
  refine hs.of_bound { StaysOn.refl s with slots := fun j hj => ?_ }
    { BoundKept.refl s with slots := fun j hj => ?_ } hs.2.2.1
  · rw [State.setSlot_slots, Table.get_set]
    split
    · next h => subst h; exact ⟨he.trans hj, (hb hj).2⟩
    · exact ⟨hj, rfl⟩
  · rw [State.setSlot_slots, Table.get_set] at hj ⊢
    split
    · next h => subst h; rw [if_pos rfl, he] at hj; exact ⟨hj, (hb hj).1⟩
    · next h => rw [if_neg h] at hj; exact ⟨hj, rfl⟩

theorem LinksSound.setRule {s : State} {k : Fin 32} {y : Rule} (hs : LinksSound s)
    (he : y.enabled = (s.rules.get k).enabled)
    (hb : (s.rules.get k).enabled = true → ConsistentRule y
      ∧ y.sourceKind = (s.rules.get k).sourceKind ∧ y.sourceIndex = (s.rules.get k).sourceIndex
      ∧ y.freezeRing = (s.rules.get k).freezeRing ∧ y.startSlot = (s.rules.get k).startSlot) :
    LinksSound (s.setRule k y) := by
  refine hs.of_bound { StaysOn.refl s with }
    { BoundKept.refl s with rules := fun j hj => ?_ } fun j hj => ?_
  · rw [State.setRule_rules, Table.get_set] at hj ⊢
    split
    · next h => subst h; rw [if_pos rfl, he] at hj; exact ⟨hj, (hb hj).2⟩
    · next h => rw [if_neg h] at hj; exact ⟨hj, rfl, rfl, rfl, rfl⟩
  · rw [State.setRule_rules, Table.get_set] at hj ⊢
    split
    · next h => subst h; rw [if_pos rfl, he] at hj; exact (hb hj).1
    · next h => rw [if_neg h] at hj; exact hs.2.2.1 j hj

theorem LinksSound.setRing {s : State} {k : Fin 8} {y : Ring} (hs : LinksSound s)
    (he : y.enabled = (s.rings.get k).enabled)
    (hb : (s.rings.get k).enabled = true →
      y.base = (s.rings.get k).base ∧ y.length = (s.rings.get k).length
      ∧ y.mode = (s.rings.get k).mode ∧ y.sourceKind = (s.rings.get k).sourceKind
      ∧ y.sourceIndex = (s.rings.get k).sourceIndex) : LinksSound (s.setRing k y) := by
  refine hs.of_bound { StaysOn.refl s with rings := fun j hj => ?_ }
    { BoundKept.refl s with rings := fun j hj => ?_ } hs.2.2.1
  · rw [State.setRing_rings, Table.get_set]
    split
    · next h => subst h; exact ⟨he.trans hj, (hb hj).2.2.1⟩
    · exact ⟨hj, rfl⟩
  · rw [State.setRing_rings, Table.get_set] at hj ⊢
    split
    · next h =>
      subst h; rw [if_pos rfl, he] at hj
      obtain ⟨h₁, h₂, _, h₃, h₄⟩ := hb hj
      exact ⟨hj, h₁, h₂, h₃, h₄⟩
    · next h => rw [if_neg h] at hj; exact ⟨hj, rfl, rfl, rfl, rfl⟩

/-- An operation that keeps a property at every entry keeps it at the entry an index names. -/
theorem atIndex_keeps {P : State → Prop} {n : Nat} {i : Option (Fin n)} {s : State}
    {op : Fin n → Status × State} (hs : P s) (h : ∀ k, P (op k).2) : P (atIndex i s op).2 := by
  rcases atIndex_cases i s op with ⟨k, _, hk⟩ | ⟨_, hk⟩ <;> rw [hk]
  · exact h k
  · exact hs

/-- A checked write keeps a property where the whole write does (R134: a refusal changes nothing). -/
theorem writeChecked_keeps {P : State → Prop} {α : Type} {t : TableId} {enabled : Bool} {mask : Nat}
    {new : Option α} {fits : α → Bool} {s : State} {put : α → State} (hs : P s)
    (h : ∀ x, new = some x → fits x = true → (enabled = true → maskBound t mask = false) → P (put x)) :
    P (writeChecked t enabled mask new fits s put).2 := by
  rcases writeChecked_cases t enabled mask new fits s put with
    ⟨x, _, hb, hx, hf, ho⟩ | ⟨_, _, ho⟩ <;> rw [ho]
  · exact h x hx hf fun he => hb.resolve_left (by simp [he])
  · exact hs

theorem LinksSound.writeEntry {s : State} (hs : LinksSound s) (x : TableId) (i mask : Nat)
    (v : List Byte) : LinksSound (s.writeEntry x i mask v).2 := by
  cases x with
  | channel =>
    refine atIndex_keeps hs fun c => writeChecked_keeps hs fun y hy _ hb => ?_
    refine hs.setChannel ?_ fun he => Channel.write_bound (hb he) hy
    rw [Channel.write_eq_some hy]
  | node => exact hs
  | slot =>
    refine atIndex_keeps hs fun k => writeChecked_keeps hs fun y hy _ hb => ?_
    rw [Slot.rewritten_eq]
    refine hs.setSlot ?_ fun he => (Slot.write_bound (hb he) hy :)
    rw [Slot.write_eq_some hy]
  | rule =>
    refine atIndex_keeps hs fun k => writeChecked_keeps hs fun y hy hf hb => ?_
    obtain ⟨hen, _⟩ := Rule.write_eq_some hy
    rw [Rule.rewritten_eq]
    refine hs.setRule hen fun he => ⟨?_, (Rule.write_bound (hb he) hy :)⟩
    have : y.consistent = true := by simpa [hen, he] using hf
    exact (Rule.consistent_iff y).mp this
  | ring =>
    refine atIndex_keeps hs fun k => writeChecked_keeps hs fun y hy _ hb => ?_
    rw [Ring.rewritten_eq]
    refine hs.setRing ?_ fun he => (Ring.write_bound (hb he) hy :)
    rw [(Ring.write_eq_some hy).2]
  | global =>
    simp only [State.writeEntry]
    split
    · exact writeChecked_keeps hs fun g _ _ _ => hs.of_settings rfl
    · exact hs

/-! ### ENABLE makes no link that is not sound -/

theorem overlaps_comm (r q : Ring) : r.overlaps q = q.overlaps r := Bool.and_comm _ _

/-- A channel enabled with a key of its own (R11). -/
theorem LinksSound.setChannel_enabled {s : State} {c : Fin 64} (hs : LinksSound s)
    (hk : s.keyTaken c = false) : LinksSound (s.setChannel c (s.channel c).enabledFresh) := by
  obtain ⟨hkeys, hsrc, hcons, hran⟩ := hs
  have hk' : ∀ d, d ≠ c → (s.channel d).enabled = true → (s.channel d).node = (s.channel c).node →
      (s.channel d).input ≠ (s.channel c).input := by
    intro d hd he hn hi
    simp [(s.keyTaken_iff c).mpr ⟨d, hd, he, hn, hi⟩] at hk
  have on : StaysOn s (s.setChannel c (s.channel c).enabledFresh) := by
    refine { StaysOn.refl s with channels := fun d hd => ?_ }
    rw [State.channel_setChannel]
    split
    · rfl
    · exact hd
  obtain ⟨hslots, hrules, hrings⟩ := hsrc
  refine ⟨fun d e hd he hn hi => ?_, ⟨fun k hk => on.channels _ (hslots k hk),
    fun k hk => on.rule (hrules k hk), fun k hk => on.source (hrings k hk)⟩, hcons, hran⟩
  rw [State.channel_setChannel] at hd hn hi
  rw [State.channel_setChannel] at he hn hi
  rcases eq_or_ne c d with rfl | hdc <;> rcases eq_or_ne c e with rfl | hec
  · rfl
  · rw [if_neg hec] at he hn hi
    rw [if_pos rfl] at hn hi
    exact absurd hi.symm (hk' e hec.symm he hn.symm)
  · rw [if_neg hdc] at hd hn hi
    rw [if_pos rfl] at hn hi
    exact absurd hi (hk' d hdc.symm hd hn)
  · rw [if_neg hdc] at hd hn hi
    rw [if_neg hec] at he hn hi
    exact hkeys d e hd he hn hi

/-- A slot enabled on an enabled channel (R25). -/
theorem LinksSound.setSlot_enabled {s : State} {k : Fin 16} (hs : LinksSound s)
    (hc : (s.channel (s.slots.get k).channel).enabled = true) :
    LinksSound (s.setSlot k (s.slots.get k).enabledFresh) := by
  obtain ⟨hkeys, ⟨hslots, hrules, hrings⟩, hcons, hran⟩ := hs
  have on : StaysOn s (s.setSlot k (s.slots.get k).enabledFresh) := by
    refine { StaysOn.refl s with slots := fun j hj => ?_ }
    rw [State.setSlot_slots, Table.get_set]
    split
    · next h => subst h; exact ⟨rfl, rfl⟩
    · exact ⟨hj, rfl⟩
  refine ⟨hkeys, ⟨fun j hj => ?_, fun j hj => on.rule (hrules j hj),
    fun j hj => on.source (hrings j hj)⟩, hcons, hran⟩
  rw [State.setSlot_slots, Table.get_set] at hj ⊢
  split
  · exact hc
  · next h => rw [if_neg h] at hj; exact hslots j hj

/-- A consistent rule enabled on an enabled source and enabled targets (R44, R45). -/
theorem LinksSound.setRule_enabled {s : State} {k : Fin 32} (hs : LinksSound s)
    (hc : ConsistentRule (s.rules.get k))
    (hl : SourceOn s (s.rules.get k).sourceKind (s.rules.get k).sourceIndex
      ∧ FreezeRingOn s (s.rules.get k) ∧ StartSlotOn s (s.rules.get k)) :
    LinksSound (s.setRule k (s.rules.get k).enabledFresh) := by
  obtain ⟨hkeys, ⟨hslots, hrules, hrings⟩, hcons, hran⟩ := hs
  refine ⟨hkeys, ⟨hslots, fun j hj => ?_, hrings⟩, fun j hj => ?_, hran⟩
  all_goals
    rw [State.setRule_rules, Table.get_set] at hj ⊢
    split
  · exact hl
  · next h => rw [if_neg h] at hj; exact hrules j hj
  · exact hc
  · next h => rw [if_neg h] at hj; exact hcons j hj

/-- A ring enabled on an enabled source with a range of its own (R69). -/
theorem LinksSound.setRing_enabled {s : State} {k : Fin 8} (hs : LinksSound s)
    (hr : s.rangeTaken k = false)
    (hl : SourceOn s (s.rings.get k).sourceKind (s.rings.get k).sourceIndex) :
    LinksSound (s.setRing k (s.rings.get k).enabledFresh) := by
  obtain ⟨hkeys, ⟨hslots, hrules, hrings⟩, hcons, hran⟩ := hs
  have hb : (s.rings.get k).enabledFresh.settings = { (s.rings.get k).settings with enabled := true } := by
    simp only [Ring.enabledFresh, Ring.begun]; split <;> rfl
  have hbase : (s.rings.get k).enabledFresh.base = (s.rings.get k).base := (congrArg Ring.base hb :)
  have hlen : (s.rings.get k).enabledFresh.length = (s.rings.get k).length :=
    (congrArg Ring.length hb :)
  have hkind : (s.rings.get k).enabledFresh.sourceKind = (s.rings.get k).sourceKind :=
    (congrArg Ring.sourceKind hb :)
  have hindex : (s.rings.get k).enabledFresh.sourceIndex = (s.rings.get k).sourceIndex :=
    (congrArg Ring.sourceIndex hb :)
  have hmode : (s.rings.get k).enabledFresh.mode = (s.rings.get k).mode := (congrArg Ring.mode hb :)
  have hr' : ∀ j, j ≠ k → (s.rings.get j).enabled = true →
      (s.rings.get j).overlaps (s.rings.get k) = false := by
    intro j hj he
    by_contra ho
    simp [(s.rangeTaken_iff k).mpr ⟨j, hj, he, by simpa using ho⟩] at hr
  have on : StaysOn s (s.setRing k (s.rings.get k).enabledFresh) := by
    refine { StaysOn.refl s with rings := fun j hj => ?_ }
    rw [State.setRing_rings, Table.get_set]
    split
    · next h => subst h; exact ⟨rfl, hmode⟩
    · exact ⟨hj, rfl⟩
  refine ⟨hkeys, ⟨hslots, fun j hj => on.rule (hrules j hj), fun j hj => ?_⟩, hcons,
    fun i j hij hi hj => ?_⟩
  · rw [State.setRing_rings, Table.get_set] at hj ⊢
    split
    · rw [hkind, hindex]; exact hl
    · next h => rw [if_neg h] at hj; exact hrings j hj
  · have hov : ∀ q : Ring, q.overlaps (s.rings.get k).enabledFresh = q.overlaps (s.rings.get k) := by
      intro q
      simp only [Ring.overlaps, hbase, hlen]
    rw [State.setRing_rings, Table.get_set] at hi hj
    rw [State.setRing_rings, Table.get_set, Table.get_set]
    rcases eq_or_ne k i with rfl | hik <;> rcases eq_or_ne k j with rfl | hjk
    · exact absurd rfl hij
    · rw [if_neg hjk] at hj ⊢
      rw [if_pos rfl, overlaps_comm, hov]
      exact hr' j hjk.symm hj
    · rw [if_neg hik] at hi ⊢
      rw [if_pos rfl, hov]
      exact hr' i hik.symm hi
    · rw [if_neg hik] at hi ⊢
      rw [if_neg hjk] at hj ⊢
      exact hran i j hij hi hj

theorem LinksSound.enableEntry {s : State} (hs : LinksSound s) (x : TableId) (i : Nat) :
    LinksSound (s.enableEntry x i).2 := by
  have passed : ∀ p, LinksSound (s.passBy p) :=
    fun p => hs.of_settings (State.passBy_onlyOffered s p).settings
  cases x with
  | channel =>
    refine atIndex_keeps hs fun c => ?_
    simp only [State.enableChannel]
    split_ifs with _ _ hk
    · exact hs
    · exact hs
    · exact hs
    · have hk : s.keyTaken c = false := by simpa using hk
      exact (passed _).setChannel_enabled hk
  | node => exact hs
  | slot =>
    refine atIndex_keeps hs fun k => ?_
    simp only [State.enableSlot]
    split_ifs with _ _ hc
    · exact hs
    · exact hs
    · exact hs
    · have hk : (s.passBy fun src => decide (src = .slot k)).slots.get k = s.slots.get k := by
        simp [State.slots_passBy]
      rw [← hk]
      refine (passed _).setSlot_enabled ?_
      have hc : (s.channel (s.slots.get k).channel).enabled = true := by simpa using hc
      rw [hk]
      exact hc
  | rule =>
    refine atIndex_keeps hs fun k => ?_
    simp only [State.enableRule]
    split_ifs with _ _ hc hsrc hf hst
    · exact hs
    · exact hs
    · exact hs
    · exact hs
    · exact hs
    · exact hs
    · exact hs.setRule_enabled ((Rule.consistent_iff _).mp (by simpa using hc))
        ⟨(s.sourceEnabled_iff _ _).mp (by simpa [Rule.source, Ring.source] using hsrc),
          (s.freezeTargetGood_iff _).mp (by simpa using hf),
          (s.startTargetGood_iff _).mp (by simpa using hst)⟩
  | ring =>
    refine atIndex_keeps hs fun k => ?_
    simp only [State.enableRing]
    split_ifs with _ _ _ hr hsrc
    · exact hs
    · exact hs
    · exact hs
    · exact hs
    · exact hs
    · exact hs.setRing_enabled (by simpa using hr)
        ((s.sourceEnabled_iff _ _).mp (by simpa [Rule.source, Ring.source] using hsrc))
  | global => exact hs

/-! ### DISABLE breaks no link -/

/-- What names another source than the channel keeps its source (R12). -/
theorem SourceOn.setChannel {s : State} {c : Fin 64} {y : Channel} {kind : SourceKind} {i : Fin 64}
    (h : SourceOn s kind i) (hn : ¬ (kind = .channel ∧ i = c)) : SourceOn (s.setChannel c y) kind i := by
  rcases h with ⟨rfl, he⟩ | h
  · have hci : c ≠ i := fun hci => hn ⟨rfl, hci.symm⟩
    exact .inl ⟨rfl, by rwa [State.channel_setChannel, if_neg hci]⟩
  · exact .inr h

/-- What names another source than the slot keeps its source (R26). -/
theorem SourceOn.setSlot {s : State} {k : Fin 16} {y : Slot} {kind : SourceKind} {i : Fin 64}
    (h : SourceOn s kind i) (hn : ¬ (kind = .slot ∧ i.val = k.val)) :
    SourceOn (s.setSlot k y) kind i := by
  rcases h with h | ⟨rfl, j, hj, he⟩
  · exact .inl h
  · have hkj : k ≠ j := fun hkj => hn ⟨rfl, by rw [hkj]; exact hj.symm⟩
    exact .inr ⟨rfl, j, hj, by rwa [State.setSlot_slots, Table.get_set_ne _ _ hkj]⟩

theorem LinksSound.disableChannel {s : State} (hs : LinksSound s) (c : Fin 64) :
    LinksSound (s.disableChannel c).2 := by
  simp only [State.disableChannel]
  split_ifs with _ hn
  · exact hs
  · exact hs
  obtain ⟨hkeys, ⟨hslots, hrules, hrings⟩, hcons, hran⟩ := hs
  rw [State.channelHasConsumer_iff] at hn
  push Not at hn
  obtain ⟨hnslot, hnrule, hnring⟩ := hn
  have off : ∀ d, ((s.setChannel c { s.channel c with enabled := false }).channel d).enabled = true →
      c ≠ d := by
    rintro d hd rfl
    simp at hd
  refine ⟨fun d e hd he => ?_, ⟨fun k hk => ?_, fun k hk => ?_, fun k hk => ?_⟩, hcons, hran⟩
  · have hcd := off d hd
    have hce := off e he
    rw [State.channel_setChannel, if_neg hcd] at hd ⊢
    rw [State.channel_setChannel, if_neg hce] at he ⊢
    exact hkeys d e hd he
  · change ((s.setChannel c _).channel (s.slots.get k).channel).enabled = true
    rw [State.channel_setChannel, if_neg (hnslot k hk).symm]
    exact hslots k hk
  · obtain ⟨hsrc, hf, hst⟩ := hrules k hk
    exact ⟨hsrc.setChannel fun h => hnrule k hk h.1 h.2, hf, hst⟩
  · exact (hrings k hk).setChannel fun h => hnring k hk h.1 h.2

theorem LinksSound.disableSlot {s : State} (hs : LinksSound s) (k : Fin 16) :
    LinksSound (s.disableSlot k).2 := by
  simp only [State.disableSlot]
  split_ifs with _ hn
  · exact hs
  · exact hs
  obtain ⟨hkeys, ⟨hslots, hrules, hrings⟩, hcons, hran⟩ := hs
  rw [State.slotHasDependent_iff] at hn
  push Not at hn
  obtain ⟨hnrule, hnring⟩ := hn
  refine ⟨hkeys, ⟨fun j hj => ?_, fun j hj => ?_, fun j hj => ?_⟩, hcons, hran⟩
  · rcases eq_or_ne k j with rfl | hkj
    · simp [Slot.disabledFresh] at hj
    · rw [State.setSlot_slots, Table.get_set_ne _ _ hkj] at hj ⊢
      exact hslots j hj
  · obtain ⟨hsrc, hf, hst⟩ := hrules j hj
    obtain ⟨hnstart, hnsrc⟩ := hnrule j hj
    refine ⟨hsrc.setSlot fun h => hnsrc h.1 h.2, hf, fun i hi => ?_⟩
    have hki : k ≠ i := fun hki => hnstart (hki ▸ hi)
    rw [State.setSlot_slots, Table.get_set_ne _ _ hki]
    exact hst i hi
  · exact (hrings j hj).setSlot fun h => hnring j hj h.1 h.2

theorem LinksSound.disableRule {s : State} (hs : LinksSound s) (k : Fin 32) :
    LinksSound (s.disableRule k).2 := by
  simp only [State.disableRule]
  split_ifs
  · exact hs
  obtain ⟨hkeys, ⟨hslots, hrules, hrings⟩, hcons, hran⟩ := hs
  have off : ∀ j, (((s.rules.set k (s.rules.get k).disabledFresh)).get j).enabled = true → k ≠ j := by
    rintro j hj rfl
    simp [Rule.disabledFresh] at hj
  refine ⟨hkeys, ⟨hslots, fun j hj => ?_, hrings⟩, fun j hj => ?_, hran⟩
  all_goals
    have hkj := off j hj
    rw [State.setRule_rules, Table.get_set_ne _ _ hkj] at hj ⊢
  · exact hrules j hj
  · exact hcons j hj

theorem LinksSound.disableRing {s : State} (hs : LinksSound s) (k : Fin 8) :
    LinksSound (s.disableRing k).2 := by
  simp only [State.disableRing]
  split_ifs with _ _ hn
  · exact hs
  · exact hs
  · exact hs
  obtain ⟨hkeys, ⟨hslots, hrules, hrings⟩, hcons, hran⟩ := hs
  rw [State.ringHasFreezer_iff] at hn
  push Not at hn
  have off : ∀ j, (((s.rings.set k (s.rings.get k).disabledFresh)).get j).enabled = true → k ≠ j := by
    rintro j hj rfl
    simp [Ring.disabledFresh] at hj
  refine ⟨hkeys, ⟨hslots, fun j hj => ?_, fun j hj => ?_⟩, hcons, fun i j hij hi hj => ?_⟩
  · obtain ⟨hsrc, hf, hst⟩ := hrules j hj
    refine ⟨hsrc, fun g hg => ?_, hst⟩
    have hkg : k ≠ g := fun hkg => hn j hj (hkg ▸ hg)
    rw [State.setRing_rings, Table.get_set_ne _ _ hkg]
    exact hf g hg
  · have hkj := off j hj
    rw [State.setRing_rings, Table.get_set_ne _ _ hkj] at hj ⊢
    exact hrings j hj
  · have hki := off i hi
    have hkj := off j hj
    rw [State.setRing_rings, Table.get_set_ne _ _ hki] at hi ⊢
    rw [Table.get_set_ne _ _ hkj]
    rw [State.setRing_rings, Table.get_set_ne _ _ hkj] at hj
    exact hran i j hij hi hj

theorem LinksSound.disableEntry {s : State} (hs : LinksSound s) (x : TableId) (i : Nat) :
    LinksSound (s.disableEntry x i).2 := by
  cases x with
  | channel => exact atIndex_keeps hs hs.disableChannel
  | node => exact hs
  | slot => exact atIndex_keeps hs hs.disableSlot
  | rule => exact atIndex_keeps hs hs.disableRule
  | ring => exact atIndex_keeps hs hs.disableRing
  | global => exact hs

/-- A request keeps the links where its execution does: a reply reaches no table. -/
theorem LinksSound.request {s t : State} {code : Nat} {run : List Byte → State → Option Answer}
    (hs : LinksSound s) (h : s.request code run = .next t)
    (hr : ∀ args status results u, run args s = some (status, results, u) → LinksSound u) :
    LinksSound t := by
  rcases State.request_next h with rfl | ⟨q, r, _, rfl⟩ | ⟨q, status, results, u, hu, rfl⟩
  · exact hs
  · exact hs.of_settings (State.settings_repliedOnly s q r)
  · exact (hr _ _ _ _ hu).of_settings (State.settings_answered u q status results)

theorem LinksSound.exec {i : Instr} {s t : State} (hs : LinksSound s) (h : exec i s = .next t) :
    LinksSound t := by
  by_cases hi : changesSettings i = false
  · exact hs.of_settings (exec_keeps_settings hi h)
  cases i with
  | hardReset cause straps =>
    simp only [Machine.exec, execHardReset] at h
    split at h <;> cases h
    · exact (linksSound_resetWith straps).of_settings rfl
    · exact hs
  | writeEntry =>
    simp only [Machine.exec, execWriteEntry] at h
    refine hs.request h fun args _ _ u hu => ?_
    split at hu <;> cases hu
    · exact hs.writeEntry _ _ _ _
    · exact hs
  | enable =>
    simp only [Machine.exec, execEnable] at h
    refine hs.request h fun args _ _ u hu => ?_
    split at hu <;> cases hu
    · exact hs.enableEntry _ _
    · exact hs
  | disable =>
    simp only [Machine.exec, execDisable] at h
    refine hs.request h fun args _ _ u hu => ?_
    split at hu <;> cases hu
    · exact hs.disableEntry _ _
    · exact hs
  | _ => exact absurd rfl hi

/-- Settles O6: the links are about the settings of the tables, which only WRITE_ENTRY, ENABLE, DISABLE
and a hard reset change, and the checks of these four keep every link. -/
theorem tableLinksStaySound : Obligations.TableLinksStaySound := by
  intro s t hs h
  simp only [step] at h
  split at h
  · cases h; exact LinksSound.of_settings (s := s) rfl hs
  · refine LinksSound.exec ?_ h
    exact LinksSound.of_settings (s := s) rfl hs

end Sys2Proof

/-! ## What fits the fields that carry it, block by block (O25)

`Fits` holds the two statements of the widths as one structure with a field for each block, so that a
command's proof names only what it changes. -/

namespace Sys2Proof

open Sys2Proof.Machine

structure PortFits (x : Port) : Prop where
  framesGood : CountFits x.framesGood
  crcErrors : CountFits x.crcErrors
  malformed : CountFits x.malformed

structure NodeFits (e : NodeEntry) : Prop where
  expected : e.expected < 65536
  accepted : CountFits e.accepted
  gaps : CountFits e.gaps
  missing : CountFits e.missing
  stale : CountFits e.stale

structure ChannelFits (c : Channel) : Prop where
  sampleIndex : MarkFits c.sampleIndex
  gapMarks : c.gapMarks ≤ 65535
  lastValue : ∀ v, c.lastValue = some v → CodeValue v

structure SlotFits (x : Slot) : Prop where
  outputIndex : MarkFits x.outputIndex
  brokenWindows : CountFits x.brokenWindows
  exponent : x.exponent ≤ 8
  items : ∀ item ∈ x.inbox, ItemFits item
  window : ∀ w, x.window = some w → WindowFits x.count w

structure RuleFits (r : Rule) : Prop where
  asserts : CountFits r.asserts
  lastAssert : ∀ t, r.lastAssert = some t → MarkFits t
  items : ∀ item ∈ r.inbox, ItemFits item
  low : WordFits r.low
  high : WordFits r.high
  hyst : r.hyst ≤ 2147483647
  previous : ∀ v, r.previous = some v → WordFits v

structure RingFits (r : Ring) : Prop where
  dropped : CountFits r.dropped
  lost : CountFits r.lost
  items : ∀ item ∈ r.inbox, ItemFits item
  pending : ∀ p, r.snapshot.pending = some p → MarkFits p.time
  record : ∀ c, r.snapshot.record = some c → MarkFits c.triggerTime ∧ MarkFits c.freezeTime

structure ReadoutFits (x : Readout) : Prop where
  nextId : x.nextId < 256
  completed : CountFits x.completed
  aborted : CountFits x.aborted
  engine : EngineFits x.engine

def RequestFits (q : EventRequest) : Prop := EventFits q.subject q.value q.count q.time

def RecordFits (r : EventRecord) : Prop := r.serial < 65536 ∧ EventFits r.subject r.value r.count r.time

structure EventsFit (e : EventUnit) : Prop where
  serial : e.serial < 65536
  pendingLoss : CountFits e.pendingLoss
  lifetimeLoss : CountFits e.lifetimeLoss
  retry : e.retry ≤ 16
  activeRetry : e.delivery = .active → e.retry ≤ 15
  requests : ∀ q ∈ e.requests, RequestFits q
  queue : ∀ r ∈ e.queue, RecordFits r

def CandidateFits (c : SampleFrame) : Prop :=
  c.seq < 65536 ∧ 1 ≤ c.entries.length ∧ c.entries.length ≤ 32
    ∧ ∀ e ∈ c.entries, e.input < 256 ∧ e.code < 16777216

def DtFrameFits : DtFrame → Prop
  | .reduced records => records.length ≤ 12 ∧ ∀ r ∈ records, OutputRecord.Fits r
  | .readout f => ReadoutFrame.Fits f

structure EgressFits (e : Egress) : Prop where
  fwDrops : CountFits e.fwDrops
  downDiscards : CountFits e.downDiscards
  reducedDropped : CountFits e.reducedDropped
  obDrops : CountFits e.obDrops
  candidates : ∀ c ∈ e.candidates, CandidateFits c
  records : ∀ r ∈ e.records, OutputRecord.Fits r
  openFrame : ∀ r ∈ e.openFrame, OutputRecord.Fits r
  dt : ∀ f ∈ e.dt, DtFrameFits f
  mr : ∀ x ∈ e.mr, x.reply.results.length ≤ 68

def MemoryFits (m : CaptureMemory) : Prop := ∀ c ∈ m.cells, WordFits c.2

def CacheFits (t : Table (Option CachedReply) 4) : Prop :=
  ∀ tag x, t.get tag = some x → x.reply.results.length ≤ 68

structure Fits (s : State) : Prop where
  timebase : MarkFits s.timebase
  fPort : PortFits s.fPort
  cPort : PortFits s.cPort
  nodes : ∀ n, NodeFits (s.classifier.nodes.get n)
  staleFrames : CountFits s.classifier.staleFrames
  channels : ∀ c, ChannelFits (s.classifier.channels.get c)
  slots : ∀ k, SlotFits (s.slots.get k)
  rules : ∀ k, RuleFits (s.rules.get k)
  rings : ∀ k, RingFits (s.rings.get k)
  memory : MemoryFits s.memory
  readout : ReadoutFits s.readout
  events : EventsFit s.events
  egress : EgressFits s.egress
  cache : CacheFits s.management.cache

theorem Fits.port {s : State} (h : Fits s) (p : PortId) : PortFits (s.port p) := by
  cases p
  · exact h.fPort
  · exact h.cPort

/-- The structure says what the two statements of the widths say together. -/
theorem fits_iff (s : State) : Fits s ↔ WidthsKept s ∧ ItemsFit s := by
  constructor
  · intro h
    refine ⟨⟨h.timebase, fun p => ?_, fun n => ?_, h.staleFrames, fun c => ?_, fun k => ?_, fun k => ?_,
      fun k => ?_, ?_, ?_, ?_, ?_⟩, fun c => (h.channels c).lastValue, fun k => ?_, fun k => ?_,
      fun k => ?_, h.memory, h.readout.engine, h.events.requests, h.events.queue, h.egress.candidates,
      h.egress.records, h.egress.openFrame, fun r hr => h.egress.dt _ hr, fun f hf => h.egress.dt _ hf,
      h.egress.mr, h.cache⟩
    · exact ⟨(h.port p).framesGood, (h.port p).crcErrors, (h.port p).malformed⟩
    · obtain ⟨h₁, h₂, h₃, h₄, h₅⟩ := h.nodes n
      exact ⟨h₁, h₂, h₃, h₄, h₅⟩
    · exact ⟨(h.channels c).sampleIndex, (h.channels c).gapMarks⟩
    · exact ⟨(h.slots k).outputIndex, (h.slots k).brokenWindows, (h.slots k).exponent⟩
    · exact ⟨(h.rules k).asserts, (h.rules k).lastAssert⟩
    · exact ⟨(h.rings k).dropped, (h.rings k).lost⟩
    · exact ⟨h.readout.nextId, h.readout.completed, h.readout.aborted⟩
    · exact ⟨h.events.serial, h.events.pendingLoss, h.events.lifetimeLoss⟩
    · exact ⟨h.events.retry, h.events.activeRetry⟩
    · exact ⟨h.egress.fwDrops, h.egress.downDiscards, h.egress.reducedDropped, h.egress.obDrops⟩
    · exact ⟨(h.slots k).items, (h.slots k).window⟩
    · obtain ⟨_, _, h₁, h₂, h₃, h₄, h₅⟩ := h.rules k
      exact ⟨h₁, h₂, h₃, h₄, h₅⟩
    · exact ⟨(h.rings k).items, (h.rings k).pending, (h.rings k).record⟩
  · rintro ⟨⟨time, ports, nodes, stale, channels, slots, rules, rings, ⟨nextId, completed, aborted⟩,
      ⟨serial, pendingLoss, lifetimeLoss⟩, ⟨retry, activeRetry⟩, ⟨fw, down, red, ob⟩⟩, lastValue,
      slotItems, ruleItems, ringItems, memory, engine, requests, queue, candidates, records, openFrame,
      reduced, readouts, mr, cache⟩
    refine ⟨time, ?_, ?_, fun n => ?_, stale, fun c => ?_, fun k => ?_, fun k => ?_, fun k => ?_, memory,
      ⟨nextId, completed, aborted, engine⟩,
      ⟨serial, pendingLoss, lifetimeLoss, retry, activeRetry, requests, queue⟩,
      ⟨fw, down, red, ob, candidates, records, openFrame, ?_, mr⟩, cache⟩
    · obtain ⟨h₁, h₂, h₃⟩ := ports .f
      exact ⟨h₁, h₂, h₃⟩
    · obtain ⟨h₁, h₂, h₃⟩ := ports .c
      exact ⟨h₁, h₂, h₃⟩
    · obtain ⟨h₁, h₂, h₃, h₄, h₅⟩ := nodes n
      exact ⟨h₁, h₂, h₃, h₄, h₅⟩
    · exact ⟨(channels c).1, (channels c).2, lastValue c⟩
    · obtain ⟨h₁, h₂, h₃⟩ := slots k
      exact ⟨h₁, h₂, h₃, (slotItems k).1, (slotItems k).2⟩
    · obtain ⟨h₁, h₂, h₃, h₄, h₅⟩ := ruleItems k
      exact ⟨(rules k).1, (rules k).2, h₁, h₂, h₃, h₄, h₅⟩
    · obtain ⟨h₁, h₂, h₃⟩ := ringItems k
      exact ⟨(rings k).1, (rings k).2, h₁, h₂, h₃⟩
    · intro f hf
      cases f with
      | reduced rs => exact reduced rs hf
      | readout f => exact readouts f hf

/-! ### Counting and reading keep to their widths -/

namespace Machine

theorem sat32_fits (n : Nat) : CountFits (sat32 n) := Nat.min_le_right _ _

theorem bump32_fits (n : Nat) : CountFits (bump32 n) := sat32_fits _

theorem wrap32_fits (n : Nat) : MarkFits (wrap32 n) := Nat.mod_lt _ (by decide)

theorem wrap16_lt (n : Nat) : wrap16 n < 65536 := Nat.mod_lt _ (by decide)

theorem bumpGapMarks_le (n : Nat) : bumpGapMarks n ≤ 65535 := Nat.min_le_right _ _

theorem byteAt_lt (bs : List Byte) (i : Nat) : byteAt bs i < 256 := (bs.getD i 0).isLt

theorem read2_lt (bs : List Byte) (i : Nat) : read2 bs i < 65536 := by
  have h₀ := byteAt_lt bs i
  have h₁ := byteAt_lt bs (i + 1)
  simp only [read2]; omega

theorem read3_lt (bs : List Byte) (i : Nat) : read3 bs i < 16777216 := by
  have h₀ := read2_lt bs i
  have h₁ := byteAt_lt bs (i + 2)
  simp only [read3]; omega

theorem read4_lt (bs : List Byte) (i : Nat) : read4 bs i < 4294967296 := by
  have h₀ := read3_lt bs i
  have h₁ := byteAt_lt bs (i + 3)
  simp only [read4]; omega

theorem readSigned4_fits (bs : List Byte) (i : Nat) : WordFits (readSigned4 bs i) := by
  have h := read4_lt bs i
  simp only [readSigned4, WordFits]
  split <;> omega

theorem sampleValue_fits (f : Format) {code : Nat} (h : code < 16777216) :
    CodeValue (sampleValue f code) := by
  cases f <;> simp only [sampleValue, CodeValue]
  · split <;> omega
  · omega

end Machine

theorem CodeValue.wordFits {v : Int} (h : CodeValue v) : WordFits v :=
  ⟨by have := h.1; omega, by have := h.2; omega⟩

theorem MarkFits.countFits {n : Nat} (h : MarkFits n) : CountFits n := Nat.le_of_lt_succ h

/-! ### Tables and lists -/

theorem Table.forall_get_set {α : Type} {n : Nat} {P : α → Prop} {t : Table α n} {k : Fin n} {x : α}
    (h : ∀ j, P (t.get j)) (hx : P x) (j : Fin n) : P ((t.set k x).get j) := by
  rw [Table.get_set]
  split
  · exact hx
  · exact h j

theorem Table.forall_get_map {α : Type} {n : Nat} {P : α → Prop} {t : Table α n} {f : α → α}
    (h : ∀ j, P (t.get j)) (hf : ∀ x, P x → P (f x)) (j : Fin n) : P ((t.map f).get j) := by
  rw [Table.get_map]
  exact hf _ (h j)

theorem forall_mem_concat {α : Type} {P : α → Prop} {l : List α} {a : α} (h : ∀ x ∈ l, P x)
    (ha : P a) : ∀ x ∈ l ++ [a], P x := by
  simpa [or_imp, forall_and] using ⟨h, ha⟩

theorem forall_mem_append {α : Type} {P : α → Prop} {l m : List α} (h : ∀ x ∈ l, P x)
    (hm : ∀ x ∈ m, P x) : ∀ x ∈ l ++ m, P x :=
  List.forall_mem_append.mpr ⟨h, hm⟩

/-! ### Right after a hard reset everything fits -/

theorem portFits_reset : PortFits Port.reset := ⟨by decide, by decide, by decide⟩

theorem egressFits_reset : EgressFits Egress.reset := by
  refine ⟨by decide, by decide, by decide, by decide, ?_, ?_, ?_, ?_, ?_⟩ <;>
    exact fun _ h => absurd h List.not_mem_nil

theorem eventsFit_reset : EventsFit EventUnit.reset := by
  refine ⟨by decide, by decide, by decide, by decide, fun h => (nomatch h), ?_, ?_⟩ <;>
    exact fun _ h => absurd h List.not_mem_nil

theorem readoutFits_reset : ReadoutFits Readout.reset := ⟨by decide, by decide, by decide, trivial⟩

theorem nodeFits_reset : NodeFits NodeEntry.reset :=
  ⟨by decide, by decide, by decide, by decide, by decide⟩

theorem channelFits_reset : ChannelFits Channel.reset := ⟨by decide, by decide, fun _ h => (nomatch h)⟩

theorem slotFits_reset : SlotFits Slot.reset :=
  ⟨by decide, by decide, by decide, fun _ h => absurd h List.not_mem_nil, fun _ h => (nomatch h)⟩

theorem ruleFits_reset : RuleFits Rule.reset :=
  ⟨by decide, fun _ h => (nomatch h), fun _ h => absurd h List.not_mem_nil, by decide, by decide,
    by decide, fun _ h => (nomatch h)⟩

theorem ringFits_reset : RingFits Ring.reset :=
  ⟨by decide, by decide, fun _ h => absurd h List.not_mem_nil, fun _ h => (nomatch h),
    fun _ h => (nomatch h)⟩

theorem fits_resetWith (straps : Fin 16) : Fits (State.resetWith straps) where
  timebase := (by decide : MarkFits 0)
  fPort := portFits_reset
  cPort := portFits_reset
  nodes n := State.resetWith_node straps n ▸ nodeFits_reset
  staleFrames := (by decide : CountFits 0)
  channels c := (Table.get_replicate Channel.reset c).symm ▸ channelFits_reset
  slots k := State.resetWith_slot straps k ▸ slotFits_reset
  rules k := State.resetWith_rule straps k ▸ ruleFits_reset
  rings k := State.resetWith_ring straps k ▸ ringFits_reset
  memory := fun _ h => absurd h List.not_mem_nil
  readout := readoutFits_reset
  events := eventsFit_reset
  egress := egressFits_reset
  cache tag x h := by simp at h

/-! ### Updates of one block -/

section
variable {s : State} (h : Fits s)
include h

theorem Fits.setPort {p : PortId} {x : Port} (hx : PortFits x) : Fits (s.setPort p x) := by
  cases p
  · exact { h with fPort := hx }
  · exact { h with cPort := hx }

theorem Fits.setChannel {c : Fin 64} {x : Channel} (hx : ChannelFits x) : Fits (s.setChannel c x) :=
  { h with channels := Table.forall_get_set h.channels hx }

theorem Fits.setNode {n : Fin 30} {x : NodeEntry} (hx : NodeFits x) : Fits (s.setNode n x) :=
  { h with nodes := Table.forall_get_set h.nodes hx }

theorem Fits.setSlot {k : Fin 16} {x : Slot} (hx : SlotFits x) : Fits (s.setSlot k x) :=
  { h with slots := Table.forall_get_set h.slots hx }

theorem Fits.setRule {k : Fin 32} {x : Rule} (hx : RuleFits x) : Fits (s.setRule k x) :=
  { h with rules := Table.forall_get_set h.rules hx }

theorem Fits.setRing {k : Fin 8} {x : Ring} (hx : RingFits x) : Fits (s.setRing k x) :=
  { h with rings := Table.forall_get_set h.rings hx }

theorem Fits.requestEvent {q : EventRequest} (hq : RequestFits q) : Fits (s.requestEvent q) :=
  { h with events := { h.events with requests := forall_mem_concat h.events.requests hq } }

theorem Fits.requestEvents {qs : List EventRequest} (hq : ∀ q ∈ qs, RequestFits q) :
    Fits (s.requestEvents qs) :=
  { h with events := { h.events with requests := forall_mem_append h.events.requests hq } }

theorem Fits.chargeMalformed (p : PortId) : Fits (s.chargeMalformed p) :=
  h.setPort { h.port p with malformed := bump32_fits _ }

theorem Fits.tellOccupancy (p : PortId) (x : OccupancyChange) : Fits (s.tellOccupancy p x) :=
  h.setPort { h.port p with }

/-- An item that fits still does when it is in flight to every consumer (R16, R34). -/
theorem Fits.offer (src : Source) {item : StreamItem} (hi : ItemFits item) : Fits (s.offer src item) := by
  refine { h with slots := Table.forall_get_map h.slots fun x hx => ?_,
                  rules := Table.forall_get_map h.rules fun r hr => ?_,
                  rings := Table.forall_get_map h.rings fun r hr => ?_ }
  all_goals split
  · exact { hx with items := forall_mem_concat hx.items hi }
  · exact hx
  · exact { hr with items := forall_mem_concat hr.items hi }
  · exact hr
  · exact { hr with items := forall_mem_concat hr.items hi }
  · exact hr

theorem Fits.passBy (p : Source → Bool) : Fits (s.passBy p) := by
  have none : ∀ item ∈ ([] : List StreamItem), ItemFits item := fun _ h => absurd h List.not_mem_nil
  refine { h with slots := Table.forall_get_map h.slots fun x hx => ?_,
                  rules := Table.forall_get_map h.rules fun r hr => ?_,
                  rings := Table.forall_get_map h.rings fun r hr => ?_ }
  all_goals split
  · exact { hx with items := none }
  · exact hx
  · exact { hr with items := none }
  · exact hr
  · exact { hr with items := none }
  · exact hr

theorem Fits.offerNext (k : Fin 16) {item : StreamItem} (hi : ItemFits item) :
    Fits (s.offerNext k item) :=
  Fits.offer (h.passBy _) _ hi

end

end Sys2Proof

/-! ### The ports and the classifier keep to the widths -/

namespace Sys2Proof

open Sys2Proof.Machine

theorem linkStateRequest_fits (p : PortId) (x : LinkChange) {now : Nat} (hn : MarkFits now) :
    RequestFits (linkStateRequest p x now) := by
  refine ⟨?_, fun _ h => (nomatch h), fun _ h => (nomatch h), hn⟩
  cases p <;> cases x <;> exact of_decide_eq_true rfl

theorem cutFrame_fits {x : Port} (h : PortFits x) : PortFits x.cutFrame := by
  rw [Port.cutFrame_eq]
  exact { h with }

theorem takeOccupancy_fits (p : PortId) {x : Port} (h : PortFits x) (o : OccupancyChange) :
    PortFits (Port.takeOccupancy p x o) := by
  rw [Port.takeOccupancy_eq]
  exact { h with }

section
variable {s : State} (h : Fits s)
include h

theorem Fits.tellLinkChange (p : PortId) (x : LinkChange) : Fits (s.tellLinkChange p x) := by
  rw [State.tellLinkChange_eq]
  exact { h with events := { h.events with }, egress := { h.egress with } }

theorem Fits.enterUp (p : PortId) : Fits (s.enterUp p) := by
  have hp : Fits (s.setPort p (s.port p).enterUp) := h.setPort { h.port p with }
  exact (hp.requestEvent (linkStateRequest_fits p .cameUp h.timebase)).tellLinkChange p .cameUp

theorem Fits.leaveUp (p : PortId) : Fits (s.leaveUp p) := by
  have hp : Fits (s.setPort p (s.port p).leaveUp) := h.setPort { cutFrame_fits (h.port p) with }
  exact (hp.requestEvent (linkStateRequest_fits p .leftUp h.timebase)).tellLinkChange p .leftUp

theorem Fits.receiveFlow (p : PortId) (paused : Bool) : Fits (s.receiveFlow p paused) := by
  simp only [State.receiveFlow]
  split
  · exact h.setPort { h.port p with }
  · split
    · exact h.enterUp p
    · exact h
  · exact h

theorem Fits.placeOb (bytes : List Byte) : Fits (s.placeOb bytes) := by
  rcases s.placeOb_cases bytes with ⟨_, hb⟩ | ⟨_, hb⟩ <;> rw [hb]
  · exact { h with egress := { h.egress with }, cPort := { h.cPort with } }
  · exact { h with egress := { h.egress with obDrops := bump32_fits _ } }

theorem Fits.arriveRequest (payload : List Byte) : Fits (s.arriveRequest payload) := by
  rcases s.arriveRequest_cases payload with ⟨_, ha⟩ | ⟨_, _, ha⟩ | ⟨_, _, ha⟩ <;> rw [ha]
  · exact { h with }
  · exact { h with }
  · exact { h with cPort := { h.cPort with malformed := bump32_fits _ } }

theorem Fits.handOn (p : PortId) (bytes : List Byte) : Fits (s.handOn p bytes) := by
  cases p <;> simp only [State.handOn]
  · split
    · exact { h with }
    · exact { h with egress := { h.egress with } }
  · split_ifs
    · exact h.arriveRequest _
    · exact (h.arriveRequest _).placeOb bytes
    · exact h.placeOb bytes

theorem Fits.takeFrame (p : PortId) (bytes : List Byte) : Fits (s.takeFrame p bytes) := by
  simp only [State.takeFrame]
  split_ifs
  · exact h.setPort { h.port p with crcErrors := bump32_fits _ }
  · exact h.chargeMalformed p
  · have hx : PortFits { s.port p with framesGood := bump32 (s.port p).framesGood } :=
      { h.port p with framesGood := bump32_fits _ }
    exact (h.setPort hx).handOn p bytes

/-! #### The classifier -/

theorem Fits.placeMark (c : Fin 64) : Fits (s.placeMark c) := by
  have hx : ChannelFits { s.channel c with gapMarks := bumpGapMarks (s.channel c).gapMarks } :=
    { h.channels c with gapMarks := bumpGapMarks_le _ }
  exact (h.setChannel hx).offer _ (item := .mark) trivial

theorem Fits.placeMarks (p : Channel → Bool) : Fits (s.placeMarks p) := by
  refine List.foldlRecOn (motive := Fits) _ _ h fun u hu c _ => ?_
  split
  · exact hu.placeMark c
  · exact hu

end

namespace Machine

/-- A gap is of fewer than 32,768 frames (R6). -/
theorem NodeEntry.gapSize_lt (e : NodeEntry) (q : Nat) : e.gapSize q < 32768 := by
  simp only [NodeEntry.gapSize]
  split
  · split
    · assumption
    · decide
  · decide

end Machine

theorem afterFrame_fits {e : NodeEntry} (h : NodeFits e) (q : Nat) : NodeFits (e.afterFrame q) where
  expected := wrap16_lt _
  accepted := bump32_fits _
  gaps := by
    simp only [NodeEntry.afterFrame]
    split
    · exact h.gaps
    · exact bump32_fits _
  missing := by
    simp only [NodeEntry.afterFrame]
    split
    · exact h.missing
    · exact sat32_fits _
  stale := h.stale

theorem gapRequest_fits (n : Fin 30) (e : NodeEntry) (q : Nat) {now : Nat} (hn : MarkFits now) :
    RequestFits (gapRequest (n.val + 1) (e.gapSize q) now) := by
  have hg := e.gapSize_lt q
  refine ⟨?_, fun _ h => (nomatch h), fun d hd => ?_, hn⟩
  · show n.val + 1 < 256
    omega
  · cases hd
    show e.gapSize q ≤ 4294967295
    omega

section
variable {s : State} (h : Fits s)
include h

theorem Fits.dropStale (n : Fin 30) : Fits (s.dropStale n) := by
  have hn : Fits (s.setNode n { s.classifier.nodes.get n with
      stale := bump32 (s.classifier.nodes.get n).stale }) :=
    h.setNode { h.nodes n with stale := bump32_fits _ }
  exact { hn with staleFrames := bump32_fits _ }

theorem Fits.trackNode (n : Fin 30) (q : Nat) : Fits (s.trackNode n q) := by
  have hn := h.setNode (n := n) (afterFrame_fits (h.nodes n) q)
  simp only [State.trackNode]
  split
  · exact hn
  · exact (hn.requestEvent (gapRequest_fits n _ q h.timebase)).placeMarks _

theorem Fits.takeSample (c : Fin 64) {code : Nat} (hc : code < 16777216) : Fits (s.takeSample c code) := by
  have hv := sampleValue_fits (s.channel c).format hc
  have hx : ChannelFits { s.channel c with
      sampleIndex := wrap32 ((s.channel c).sampleIndex + 1)
      lastValue := some (sampleValue (s.channel c).format code) } :=
    { h.channels c with sampleIndex := wrap32_fits _, lastValue := fun _ hv' => by cases hv'; exact hv }
  exact Fits.offer (h.setChannel hx) _ (item := .sample _ _) ⟨hv, (h.channels c).sampleIndex⟩

theorem Fits.takeEntries (node : Nat) {es : List SampleEntry} (hes : ∀ e ∈ es, e.code < 16777216) :
    Fits (s.takeEntries node es).1 := by
  induction es generalizing s with
  | nil => exact h
  | cons e es ih =>
    refine ih (s := (s.takeEntry node e).1) ?_ fun x hx => hes x (List.mem_cons_of_mem _ hx)
    simp only [State.takeEntry]
    split
    · exact h.takeSample _ (hes e List.mem_cons_self)
    · exact h

end

/-- The kept entries are entries of the frame, in their order (R19). -/
theorem takeEntries_sublist (s : State) (node : Nat) (es : List SampleEntry) :
    (s.takeEntries node es).2.Sublist es := by
  induction es generalizing s with
  | nil => exact List.Sublist.slnil
  | cons e es ih =>
    simp only [State.takeEntries]
    split
    · exact (ih _).cons_cons e
    · exact (ih _).cons e

theorem sampleEntries_length (payload : List Byte) (k i : Nat) :
    (sampleEntries payload k i).length = k := by
  induction k generalizing i with
  | zero => rfl
  | succ k ih => simp [sampleEntries, ih]

theorem sampleEntries_fits (payload : List Byte) (k i : Nat) :
    ∀ e ∈ sampleEntries payload k i, e.input < 256 ∧ e.code < 16777216 := by
  induction k generalizing i with
  | zero => exact fun _ h => absurd h List.not_mem_nil
  | succ k ih => exact List.forall_mem_cons.mpr ⟨⟨byteAt_lt _ _, read3_lt _ _⟩, ih _⟩

/-- What a SAMPLE frame carries fits a forward candidate (R1). -/
theorem readSampleFrame_fits {bytes : List Byte} {f : SampleFrame} (h : readSampleFrame bytes = some f) :
    f.seq < 65536 ∧ f.entries.length ≤ 32 ∧ ∀ e ∈ f.entries, e.input < 256 ∧ e.code < 16777216 := by
  simp only [readSampleFrame] at h
  split at h
  · next hc =>
    cases h
    exact ⟨read2_lt _ _, (sampleEntries_length _ _ _).trans_le hc.2.1, sampleEntries_fits _ _ _⟩
  · cases h

theorem Fits.handCandidate {s : State} (h : Fits s) {f : SampleFrame} {kept : List SampleEntry}
    (hf : f.seq < 65536 ∧ f.entries.length ≤ 32 ∧ ∀ e ∈ f.entries, e.input < 256 ∧ e.code < 16777216)
    (hk : kept.Sublist f.entries) : Fits (s.handCandidate f kept) := by
  obtain ⟨hseq, hlen, hes⟩ := hf
  simp only [State.handCandidate]
  split
  · exact h
  · next hne =>
    have hc : CandidateFits { f with entries := kept } :=
      ⟨hseq, List.length_pos_of_ne_nil hne, hk.length_le.trans hlen, fun e he => hes e (hk.subset he)⟩
    exact { h with egress := { h.egress with candidates := forall_mem_concat h.egress.candidates hc } }

theorem Fits.takeSampleFrame {s : State} (h : Fits s) (bytes : List Byte) :
    Fits (s.takeSampleFrame bytes) := by
  simp only [State.takeSampleFrame]
  split
  · next f n hf _ =>
    have hf := readSampleFrame_fits hf
    split_ifs
    · exact h.chargeMalformed _
    · exact h.dropStale n
    · refine Fits.handCandidate ?_ hf (takeEntries_sublist _ _ _)
      exact ((h.passBy _).trackNode n f.seq).takeEntries _ fun e he => (hf.2.2 e he).2
  · exact h.chargeMalformed _

theorem Fits.unseeNodes {s : State} (h : Fits s) : Fits s.unseeNodes :=
  { h with nodes := Table.forall_get_map h.nodes fun _ hn => { hn with expected := Nat.zero_lt_succ _ } }

/-! ### The slots keep to the widths -/

/-- A window with one more sample (R28). -/
theorem extended_fits {x : Slot} (hx : SlotFits x) (hs : Slot.Sound x) {v : Int} {i : Nat}
    (hv : CodeValue v) (hi : MarkFits i) : WindowFits (x.count + 1) (x.extended v i) := by
  obtain ⟨hv₁, hv₂⟩ := hv
  obtain ⟨_, _, _, hcount, _⟩ := hs
  simp only [Slot.extended]
  split
  · next hw =>
    have hc := hcount.mp hw
    refine ⟨?_, ?_, ⟨hv₁, hv₂⟩, ⟨hv₁, hv₂⟩, hi⟩ <;> simp only [Window.first] <;> omega
  · next w hw =>
    obtain ⟨hlo, hhi, hmax, hmin, hfirst⟩ := hx.window w hw
    refine ⟨?_, ?_, ?_, ?_, hfirst⟩
    · simp only [Window.add]; push_cast; omega
    · simp only [Window.add]; push_cast; omega
    · simp only [Window.add]; split
      · exact ⟨hv₁, hv₂⟩
      · exact hmax
    · simp only [Window.add]; split
      · exact ⟨hv₁, hv₂⟩
      · exact hmin

/-- The sum of 2^e samples fits 32 bits when divided by 2^e, and by 2^(e/2) (R30, R31). -/
theorem floorShift_fits {sum : Int} {e k : Nat} (he : e ≤ 8) (hk : k = e ∨ k = e / 2)
    (hlo : (2 ^ e : Nat) * (-8388608) ≤ sum) (hhi : sum ≤ (2 ^ e : Nat) * 16777215) :
    WordFits (floorShift sum k) := by
  rw [floorShift, Int.fdiv_eq_ediv_of_nonneg _ (by positivity)]
  interval_cases e <;> rcases hk with rfl | rfl <;> norm_num at hlo hhi ⊢ <;>
    constructor <;> omega

theorem output_fits {w : Window} {e : Nat} (he : e ≤ 8) (hw : WindowFits (2 ^ e) w) (mode : SlotMode) :
    match w.output mode e with
    | .value v => WordFits v
    | .peak max min => WordFits max ∧ WordFits min := by
  obtain ⟨hlo, hhi, hmax, hmin, _⟩ := hw
  cases mode with
  | mean => exact floorShift_fits he (.inl rfl) hlo hhi
  | enhance => exact floorShift_fits he (.inr rfl) hlo hhi
  | peak => exact ⟨hmax.wordFits, hmin.wordFits⟩

theorem afterOutput_fits {x : Slot} (hx : SlotFits x) : SlotFits x.afterOutput :=
  { hx with outputIndex := wrap32_fits _, window := fun _ h => (nomatch h) }

theorem takeSample_fits {x : Slot} (hx : SlotFits x) (hs : Slot.Sound x) (k : Fin 16) {v : Int}
    {i now : Nat} (hv : CodeValue v) (hi : MarkFits i) (hn : MarkFits now) :
    SlotFits (x.takeSample k v i now).1
      ∧ ∀ r, (x.takeSample k v i now).2 = some r → OutputRecord.Fits r := by
  have hw := extended_fits hx hs hv hi
  obtain ⟨_, _, _, _, hlt⟩ := hs
  simp only [Slot.takeSample]
  split
  · split
    · refine ⟨{ hx with window := fun w h => ?_ }, fun _ h => (nomatch h)⟩
      cases h
      exact hw
    · next hN =>
      have hcount : x.count + 1 = 2 ^ x.exponent := by
        simp only [Slot.windowLength] at hlt hN; omega
      rw [hcount] at hw
      refine ⟨afterOutput_fits hx, fun r hr => ?_⟩
      cases hr
      exact ⟨hx.outputIndex, hw.2.2.2.2, hn, output_fits hx.exponent hw x.mode⟩
  · exact ⟨hx, fun _ h => (nomatch h)⟩
  · exact ⟨hx, fun _ h => (nomatch h)⟩

section
variable {s : State} (h : Fits s)
include h

theorem Fits.deliverOutput (k : Fin 16) {r : OutputRecord} (hr : OutputRecord.Fits r) (b : Bool) :
    Fits (s.deliverOutput k r b) := by
  have ho : Fits (s.offerNext k (.record r)) := h.offerNext k hr
  simp only [State.deliverOutput]
  split
  · exact { ho with egress := { ho.egress with records := forall_mem_concat ho.egress.records hr } }
  · exact ho

theorem Fits.slotTakesSample {k : Fin 16} {x : Slot} {v : Int} {i : Nat} (hx : SlotFits x)
    (hs : Slot.Sound x) (hv : CodeValue v) (hi : MarkFits i) : Fits (s.slotTakesSample k x v i) := by
  obtain ⟨hy, hr⟩ := takeSample_fits hx hs k hv hi h.timebase
  simp only [State.slotTakesSample]
  split
  · next y he => rw [he] at hy; exact h.setSlot hy
  · next y r he =>
    rw [he] at hy hr
    exact (h.setSlot hy).deliverOutput k (hr r rfl) _

theorem Fits.slotTakesMark {k : Fin 16} {x : Slot} (hx : SlotFits x) (hs : Slot.Sound x) :
    Fits (s.slotTakesMark k x) := by
  have hm : SlotFits x.afterMark := by
    simp only [Slot.afterMark]
    split
    · exact { hx with brokenWindows := bump32_fits _, window := fun _ h => (nomatch h) }
    · exact { hx with }
  have hq : RequestFits (x.brokenRequest k s.timebase) := by
    refine ⟨?_, fun _ h => (nomatch h), fun n hn => ?_, h.timebase⟩
    · show k.val < 256
      omega
    · cases hn
      obtain ⟨_, _, _, _, hlt⟩ := hs
      have : 2 ^ x.exponent ≤ 2 ^ 8 := Nat.pow_le_pow_right (by decide) hx.exponent
      simp only [Slot.windowLength] at hlt
      show x.count ≤ 4294967295
      omega
  simp only [State.slotTakesMark]
  split
  · exact h.setSlot hx
  · refine Fits.offerNext ?_ k (item := .mark) trivial
    split
    · exact (h.setSlot hm).requestEvent hq
    · exact h.setSlot hm

end

theorem afterStart_fits {x : Slot} (hx : SlotFits x) : SlotFits x.afterStart := by
  simp only [Slot.afterStart]
  split
  · exact { hx with window := fun _ h => (nomatch h) }
  · exact hx

end Sys2Proof

/-! ### The rules keep to the widths -/

namespace Sys2Proof

open Sys2Proof.Machine

/-- The value and index a rule takes from an item that fits (R47). -/
theorem valueOf_fits {r : Rule} {item : StreamItem} {v : Int} {i : Nat} (hi : ItemFits item)
    (h : r.valueOf item = some (v, i)) : WordFits v ∧ MarkFits i := by
  cases item with
  | sample v i => cases h; exact ⟨CodeValue.wordFits hi.1, hi.2⟩
  | record x =>
    obtain ⟨hindex, _, _, hdata⟩ := hi
    simp only [Rule.valueOf] at h
    cases hd : x.data with
    | value v => rw [hd] at h hdata; cases h; exact ⟨hdata, hindex⟩
    | peak max min =>
      rw [hd] at h hdata
      cases hp : r.peakPart <;> rw [hp] at h <;> cases h
      · exact ⟨hdata.1, hindex⟩
      · exact ⟨hdata.2, hindex⟩
  | mark => cases h

theorem stepValue_fits {r : Rule} (hr : RuleFits r) {v : Int} (hv : WordFits v) :
    RuleFits (r.stepValue v).1 := by
  have hp : ∀ u, some v = some u → WordFits u := fun _ h => by cases h; exact hv
  simp only [Rule.stepValue]
  split
  · exact { hr with previous := hp }
  · exact { hr with previous := hp }

theorem ruleRequest_fits {s : State} (h : Fits s) (k : Fin 32) (r : Rule) (kind : EventKind) {v : Int}
    {i : Nat} (hv : WordFits v) (hi : MarkFits i) : RequestFits (s.ruleRequest k r kind v i) := by
  refine ⟨?_, fun _ hu => by cases hu; exact hv, fun _ hu => by cases hu; exact hi.countFits, h.timebase⟩
  show k.val < 256
  omega

section
variable {s : State} (h : Fits s)
include h

theorem Fits.sendFreeze (k : Fin 32) (g : Option (Fin 8)) : Fits (s.sendFreeze k g) := by
  cases g with
  | none => exact h
  | some g => exact h.setRing { h.rings g with }

theorem Fits.sendStart (j : Option (Fin 16)) : Fits (s.sendStart j) := by
  cases j with
  | none => exact h
  | some j => exact h.setSlot { h.slots j with }

theorem Fits.ruleAsserts {k : Fin 32} {r : Rule} (hr : RuleFits r) {v : Int} {i : Nat}
    (hv : WordFits v) (hi : MarkFits i) : Fits (s.ruleAsserts k r v i) := by
  have hy : RuleFits { r with asserts := bump32 r.asserts, lastAssert := some s.timebase } :=
    { hr with asserts := bump32_fits _, lastAssert := fun _ ht => by cases ht; exact h.timebase }
  have hs := h.setRule (k := k) hy
  simp only [State.ruleAsserts]
  refine Fits.sendStart (Fits.sendFreeze ?_ _ _) _
  split
  · exact hs.requestEvent (ruleRequest_fits hs k r _ hv hi)
  · exact hs

theorem Fits.ruleReleases {k : Fin 32} {r : Rule} (hr : RuleFits r) {v : Int} {i : Nat}
    (hv : WordFits v) (hi : MarkFits i) : Fits (s.ruleReleases k r v i) := by
  have hs := h.setRule (k := k) hr
  simp only [State.ruleReleases]
  split
  · exact hs.requestEvent (ruleRequest_fits hs k r _ hv hi)
  · exact hs

theorem Fits.ruleTakesValue {k : Fin 32} {r : Rule} (hr : RuleFits r) {v : Int} {i : Nat}
    (hv : WordFits v) (hi : MarkFits i) : Fits (s.ruleTakesValue k r v i) := by
  have hy := stepValue_fits hr hv
  simp only [State.ruleTakesValue]
  split
  · split
    · next y he => rw [he] at hy; exact h.setRule hy
    · next y he => rw [he] at hy; exact h.ruleAsserts hy hv hi
    · next y he => rw [he] at hy; exact h.ruleReleases hy hv hi
  · exact h.setRule hr

end

/-! ### The rings keep to the widths -/

/-- What the range of a ring bounds (R67, R73, R81). -/
structure RingBounds (r : Ring) : Prop where
  length : r.length ≤ 65536
  valid : r.snapshot.valid ≤ 65536
  fill : r.enabled = true → r.mode = .stream → ∀ h, (r.stream.half h).fill ≤ 65536
  record : ∀ c, r.snapshot.record = some c → c.valid ≤ 65536

theorem ringBounds {s : State} (hr : RangesSound s) (hf : FillsSound s) (k : Fin 8) :
    RingBounds (s.rings.get k) := by
  obtain ⟨hbase, _, _, _, _, hvalid, _, _, hrecord⟩ := hr k
  obtain ⟨_, hhalf⟩ := hf k
  simp only [Config.captureWords] at hbase
  refine ⟨by omega, by omega, fun he hm h => ?_, fun c hc => ?_⟩
  · have := (hhalf he hm h _ rfl).1
    omega
  · have := (hrecord c hc).1
    omega

theorem closingRequests_fit {k : Fin 8} {r : Ring} (hf : ∀ h, CountFits (r.stream.half h).fill)
    {now : Nat} (hn : MarkFits now) (h : HalfId) : ∀ q ∈ closingRequests k r h now, RequestFits q := by
  have half : ∀ (h : HalfId) (kind : EventKind), RequestFits
      { requester := .ring k, kind := kind, subject := halfSubject k h, channel := none, value := none,
        count := some (r.stream.half h).fill, time := now } := by
    intro h kind
    refine ⟨?_, fun _ hu => (nomatch hu), fun n hu => by cases hu; exact hf h, hn⟩
    simp only [halfSubject]
    split <;> omega
  simp only [closingRequests]
  split
  · refine List.forall_mem_cons.mpr ⟨half h _, ?_⟩
    split
    · exact List.forall_mem_singleton.mpr (half h.other _)
    · exact fun _ hu => absurd hu List.not_mem_nil
  · exact fun _ hu => absurd hu List.not_mem_nil

theorem closeHalf_fits {r : Ring} (hr : RingFits r) (hf : ∀ h, CountFits (r.stream.half h).fill)
    (k : Fin 8) {now : Nat} (hn : MarkFits now) (h : HalfId) :
    RingFits (r.closeHalf k h now).1 ∧ ∀ q ∈ (r.closeHalf k h now).2, RequestFits q := by
  obtain ⟨⟨heq, _, _, hlost⟩, hq⟩ := r.closeHalf_spec k h now
  refine ⟨?_, hq ▸ closingRequests_fit hf hn h⟩
  have hl : CountFits (r.closeHalf k h now).1.lost := by
    rw [hlost]
    split
    · exact Nat.min_le_right _ _
    · exact hr.lost
  rw [heq]
  exact { hr with lost := hl }

theorem goFrozen_fits {r : Ring} (hr : RingFits r) (hv : r.snapshot.valid ≤ 65536) (k : Fin 8)
    {p : PendingTrigger} (hp : MarkFits p.time) {now : Nat} (hn : MarkFits now) :
    RingFits (r.goFrozen k p now).1 ∧ ∀ q ∈ (r.goFrozen k p now).2, RequestFits q := by
  refine ⟨{ hr with pending := fun _ h => (nomatch h), record := fun c hc => ?_ }, ?_⟩
  · cases hc
    exact ⟨hp, hn⟩
  · simp only [Ring.goFrozen, Ring.notified]
    split
    · refine List.forall_mem_singleton.mpr ⟨?_, fun v h => ?_, fun n h => ?_, hn⟩
      · show k.val < 256
        omega
      · cases h
        cases ht : p.trigger <;>
          simp only [SnapshotState.makeRecord, ht, Trigger.eventValue, WordFits] <;> omega
      · cases h
        show r.snapshot.valid ≤ 4294967295
        omega
    · exact fun _ h => absurd h List.not_mem_nil

theorem wordsAt_words {o : Nat} {ws : List Int} : ∀ w ∈ wordsAt o ws, w.2 ∈ ws := by
  induction ws generalizing o with
  | nil => exact fun _ h => absurd h List.not_mem_nil
  | cons v vs ih =>
    exact List.forall_mem_cons.mpr ⟨List.mem_cons_self, fun w hw => List.mem_cons_of_mem _ (ih w hw)⟩

/-- What a ring answers: the ring, its requests and the words it writes all fit. -/
structure TakingFits (ws : List Int) (a : Ring × List (Nat × Int) × List EventRequest) : Prop where
  ring : RingFits a.1
  requests : ∀ q ∈ a.2.2, RequestFits q
  words : ∀ w ∈ a.2.1, w.2 ∈ ws

/-- A ring that takes nothing from the words. -/
theorem takingFits_nothing {r : Ring} (hr : RingFits r) (ws : List Int) : TakingFits ws (r, [], []) :=
  ⟨hr, fun _ h => absurd h List.not_mem_nil, fun _ h => absurd h List.not_mem_nil⟩

theorem streamTakes_fits {r : Ring} (hr : RingFits r) (hf : ∀ h, (r.stream.half h).fill ≤ 65536)
    (k : Fin 8) {ws : List Int} (hw : ws.length ≤ 2) {now : Nat} (hn : MarkFits now) :
    TakingFits ws (r.streamTakes k ws now) := by
  simp only [Ring.streamTakes]
  split
  · exact takingFits_nothing hr ws
  · have hd : RingFits { r with dropped := sat32 (r.dropped + ws.length) } :=
      { hr with dropped := sat32_fits _ }
    exact takingFits_nothing hd ws
  · next h _ =>
    have hy : RingFits (r.fillHalf h ws.length) := { hr with }
    have hfill : ∀ g, CountFits ((r.fillHalf h ws.length).stream.half g).fill := by
      intro g
      have hg := hf g
      cases h <;> cases g <;>
        simp only [Ring.fillHalf, StreamState.setHalf, StreamState.half, CountFits] at hg ⊢ <;> omega
    split
    · exact ⟨hy, fun _ hq => absurd hq List.not_mem_nil, wordsAt_words⟩
    · obtain ⟨hc, hq⟩ := closeHalf_fits hy hfill k hn h
      exact ⟨hc, hq, wordsAt_words⟩

theorem snapshotTakes_fits {r : Ring} (hr : RingFits r) (hl : r.length ≤ 65536) (k : Fin 8)
    {ws : List Int} {now : Nat} (hn : MarkFits now) : TakingFits ws (r.snapshotTakes k ws now) := by
  have hz : ∀ os : List Nat, ∀ w ∈ os.zip ws, w.2 ∈ ws := fun _ _ h => (List.of_mem_zip h).2
  simp only [Ring.snapshotTakes]
  split
  · exact ⟨{ hr with }, fun _ hq => absurd hq List.not_mem_nil, hz _⟩
  · next p _ hp =>
    have hy : RingFits { r with snapshot := { r.snapshot.written r.length ws.length with
        remaining := (r.snapshot.written r.length ws.length).remaining - ws.length } } := { hr with }
    split
    · obtain ⟨hc, hq⟩ := goFrozen_fits hy ((Nat.min_le_right _ _).trans hl) k (hr.pending p hp) hn
      exact ⟨hc, hq, hz _⟩
    · exact ⟨hy, fun _ hq => absurd hq List.not_mem_nil, hz _⟩
  · exact takingFits_nothing hr ws

theorem takeWords_fits {r : Ring} (hr : RingFits r) (hb : RingBounds r) (k : Fin 8) {ws : List Int}
    (hw : ws.length ≤ 2) {now : Nat} (hn : MarkFits now) : TakingFits ws (r.takeWords k ws now) := by
  simp only [Ring.takeWords]
  split
  · next he =>
    split
    · next hm => exact streamTakes_fits hr (hb.fill he hm) k hw hn
    · exact snapshotTakes_fits hr hb.length k hn
  · exact takingFits_nothing hr ws

/-- Capture memory after words that fit have been written (R65). -/
theorem writeAll_fits {m : CaptureMemory} (hm : MemoryFits m) {ws : List (Nat × Int)}
    (hw : ∀ w ∈ ws, WordFits w.2) : MemoryFits (m.writeAll ws) := by
  induction ws generalizing m with
  | nil => exact hm
  | cons w ws ih =>
    obtain ⟨h₀, hw⟩ := List.forall_mem_cons.mp hw
    refine ih (m := m.write w.1 w.2) (fun c hc => ?_) hw
    rcases cellWrite_mem hc with hc | ⟨rfl, _⟩
    · exact hm c hc
    · exact h₀

/-- A word read from capture memory fits (R66: a word that nothing has written reads 0). -/
theorem read_fits {m : CaptureMemory} (hm : MemoryFits m) (o : Nat) : WordFits (m.read o) := by
  obtain ⟨cs⟩ := m
  induction cs with
  | nil => exact (by decide : WordFits 0)
  | cons c cs ih =>
    obtain ⟨h₀, hcs⟩ := List.forall_mem_cons.mp hm
    simp only [CaptureMemory.read, cellRead]
    split
    · exact h₀
    · exact ih hcs

theorem words_fit {item : StreamItem} (h : ItemFits item) : ∀ v ∈ item.words, WordFits v := by
  cases item with
  | sample v i => exact List.forall_mem_singleton.mpr (CodeValue.wordFits h.1)
  | record r =>
    obtain ⟨_, _, _, hdata⟩ := h
    simp only [StreamItem.words]
    cases hd : r.data with
    | value v => rw [hd] at hdata; exact List.forall_mem_singleton.mpr hdata
    | peak max min =>
      rw [hd] at hdata
      exact List.forall_mem_cons.mpr ⟨hdata.1, List.forall_mem_singleton.mpr hdata.2⟩
  | mark => exact fun _ h => absurd h List.not_mem_nil

section
variable {s : State} (h : Fits s)
include h

theorem Fits.ringTakesWords {t : State} {k : Fin 8} {r : Ring} (hr : RingFits r) (hb : RingBounds r)
    {item : StreamItem} (hi : ItemFits item) (ht : s.ringTakesWords k r item.words = some t) : Fits t := by
  obtain ⟨_, rfl⟩ := State.ringTakesWords_eq_some ht
  have ha := takeWords_fits hr hb k item.words_length h.timebase
  have hs := (h.setRing (k := k) ha.ring).requestEvents ha.requests
  exact { hs with memory := writeAll_fits h.memory fun w hw => words_fit hi _ (ha.words w hw) }

theorem Fits.ringTakesFreeze {k : Fin 8} {r : Ring} (hr : RingFits r) (hb : RingBounds r) (t : Trigger) :
    Fits (s.ringTakesFreeze k r t) := by
  simp only [State.ringTakesFreeze]
  split
  · have hy : RingFits { r with snapshot := { r.snapshot with
        state := .countdown, pending := some ⟨t, s.timebase⟩, remaining := r.postCount } } :=
      { hr with pending := fun p hp => by cases hp; exact h.timebase }
    simp only [Ring.takeFreeze]
    split
    · obtain ⟨hc, hq⟩ := goFrozen_fits hy hb.valid k (p := ⟨t, s.timebase⟩) h.timebase h.timebase
      exact (h.setRing hc).requestEvents hq
    · exact (h.setRing hy).requestEvents fun _ hq => absurd hq List.not_mem_nil
  · exact h.setRing hr

end

theorem takeMark_fits {r : Ring} (hr : RingFits r) : RingFits r.takeMark := by
  simp only [Ring.takeMark]
  split
  · split
    · exact { hr with }
    · have hs : r.snapshot.takeMark.pending = r.snapshot.pending
          ∧ r.snapshot.takeMark.record = r.snapshot.record := by
        simp only [SnapshotState.takeMark]
        split <;> exact ⟨rfl, rfl⟩
      exact { hr with pending := hs.1 ▸ hr.pending, record := hs.2 ▸ hr.record }
  · exact hr

end Sys2Proof

/-! ### The readout engine keeps to the widths -/

namespace Sys2Proof

open Sys2Proof.Machine

/-- Everything fits, and a readout in progress has at most capture memory's words (R94). -/
structure EngineBound (s : State) : Prop where
  fits : Fits s
  total : ∀ x, s.readout.engine = .sending x → x.total ≤ 65536

theorem engineBound {s : State} (h : Fits s) (hr : RangesSound s) (hi : ReadoutInRange s) :
    EngineBound s := by
  refine ⟨h, fun x hx => ?_⟩
  obtain ⟨hbase, _⟩ := hr x.ring
  have hx := (hi x _ hx rfl).1
  simp only [Config.captureWords] at hbase
  omega

theorem Fits.givePart {s : State} (h : Fits s) (x : ReadoutRecord) (done : Bool) :
    Fits (s.givePart x done) := by
  refine h.setRing ?_
  simp only [Ring.givePart]
  split
  · exact { h.rings x.ring with }
  · exact { h.rings x.ring with }

theorem terminatorFrame_fits {x : TerminatingRecord} (hx : EngineFits (.terminating x)) :
    ReadoutFrame.Fits x.frame :=
  ⟨hx.1, hx.2, Nat.zero_le _, fun _ h => absurd h List.not_mem_nil⟩

theorem EngineBound.placeTerminator {s : State} (h : EngineBound s) : EngineBound s.placeTerminator := by
  rcases s.placeTerminator_cases with hp | ⟨x, hx, _, _, _, hp⟩ <;> rw [hp]
  · exact h
  · have he : EngineFits (.terminating x) := hx ▸ h.fits.readout.engine
    refine ⟨{ h.fits with
      egress := { h.fits.egress with
        dt := forall_mem_concat h.fits.egress.dt (terminatorFrame_fits he) }
      readout := { h.fits.readout with engine := he } }, fun _ hy => (nomatch hy)⟩

/-- One production: a frame of at most 48 words at an offset below 65,536 (R95, R98). -/
theorem EngineBound.produceOne {s t : State} (h : EngineBound s) (ht : s.produceOne = some t) :
    EngineBound t := by
  rcases State.produceOne_cases ht with rfl | ⟨x, hx, _, _, hlast, _, rfl⟩
  · exact h
  · have htotal := h.total x hx
    have he : EngineFits (.sending x) := hx ▸ h.fits.readout.engine
    obtain ⟨hid, hsent, hnext⟩ := he
    have hlen : (s.nextFrame x).words.length ≤ 48 := by
      simp [State.nextFrame, Ring.frameOffsets, ReadoutRecord.frameWords]
    have hwords : ∀ v ∈ (s.nextFrame x).words, WordFits v := by
      simp only [State.nextFrame, List.mem_map]
      rintro _ ⟨o, _, rfl⟩
      exact read_fits h.fits.memory o
    have hf : ReadoutFrame.Fits (s.nextFrame x) := ⟨hid, hnext hlast, hlen, hwords⟩
    have hp : EngineFits (.sending x.placed) := by
      refine ⟨hid, hsent, fun hl => ?_⟩
      simp only [ReadoutRecord.placed, decide_eq_false_iff_not] at hl ⊢
      omega
    refine ⟨{ h.fits with
      egress := { h.fits.egress with dt := forall_mem_concat h.fits.egress.dt hf }
      readout := { h.fits.readout with engine := hp } }, fun y hy => ?_⟩
    cases hy
    exact htotal

theorem EngineBound.examineEngine {s t : State} (h : EngineBound s) (ht : s.examineEngine = some t) :
    EngineBound t :=
  State.examineEngine_keeps (fun _ hu => hu.placeTerminator) (fun _ _ hu hv => hu.produceOne hv) h ht

/-- The grant of a frame: what has been sent stays below 65,536 words until LAST is sent (R99). -/
theorem EngineBound.engineGranted {s : State} (h : EngineBound s) {f : ReadoutFrame}
    (hf : ∀ x, s.readout.engine = .sending x → f.last = false → x.wordsSent + f.words.length < 65536) :
    EngineBound (s.engineGranted f) := by
  simp only [State.engineGranted]
  split
  · next x hx =>
    split
    · have hg := h.fits.givePart x true
      exact ⟨{ hg with readout := { hg.readout with completed := bump32_fits _, engine := trivial } },
        fun _ hy => (nomatch hy)⟩
    · next hl =>
      have he : EngineFits (.sending x) := hx ▸ h.fits.readout.engine
      have hg : EngineFits (.sending (x.granted f)) := ⟨he.1, hf x hx (by simpa using hl), he.2.2⟩
      refine ⟨{ h.fits with readout := { h.fits.readout with engine := hg } }, fun y hy => ?_⟩
      cases hy
      exact h.total x hx
  · split
    · exact ⟨{ h.fits with readout := { h.fits.readout with engine := trivial } },
        fun _ hy => (nomatch hy)⟩
    · exact h
  · exact h

theorem Fits.readoutLinkLost {s : State} (h : Fits s) : Fits s.readoutLinkLost := by
  simp only [State.readoutLinkLost]
  split
  · next x _ =>
    have hg := h.givePart x false
    exact { hg with readout := { hg.readout with aborted := bump32_fits _, engine := trivial } }
  · exact { h with readout := { h.readout with engine := trivial } }
  · exact h

theorem Fits.abortReadout {s : State} (h : Fits s) {x : ReadoutRecord}
    (hx : s.readout.engine = .sending x) : Fits (s.abortReadout x) := by
  have he : EngineFits (.sending x) := hx ▸ h.readout.engine
  have hd : ∀ n, Fits { s with egress := { s.egress with
      dt := s.egress.dt.filter fun f => !f.ofReadout x.id, streak := n } } := fun n =>
    { h with egress := { h.egress with dt := fun f hf => h.egress.dt f (List.mem_of_mem_filter hf) } }
  have ht : ∀ n, EngineBound (State.countAborted (State.setEngine (State.givePart { s with
      egress := { s.egress with dt := s.egress.dt.filter fun f => !f.ofReadout x.id, streak := n } }
      x false) (.terminating ⟨x.id, x.ring, x.part, x.gapped, x.wordsSent, true⟩))) := by
    intro n
    have hg := (hd n).givePart x false
    exact ⟨{ hg with readout := { hg.readout with aborted := bump32_fits _, engine := ⟨he.1, he.2.1⟩ } },
      fun _ hy => (nomatch hy)⟩
  exact (ht _).placeTerminator.fits

/-- The words of a part that can be read are at most capture memory's (R73, R81, R94). -/
theorem partWords_le {r : Ring} (hb : RingBounds r) (he : r.enabled = true) {part : RingPart}
    (hp : part.fits r.mode = true) : r.partWords part ≤ 65536 := by
  have hm : ∀ h, part.half = some h → r.mode = .stream := by
    intro h hh
    cases hmode : r.mode with
    | stream => rfl
    | snapshot => simp [RingPart.fits, hh, hmode] at hp
  cases part with
  | halfA => exact hb.fill he (hm .a rfl) .a
  | halfB => exact hb.fill he (hm .b rfl) .b
  | snapshot =>
    simp only [Ring.partWords]
    split
    · next c hc => exact hb.record c hc
    · exact Nat.zero_le _

theorem Fits.acceptReadout {s : State} (h : Fits s) {k : Fin 8} {part : RingPart}
    (hw : (s.rings.get k).partWords part ≤ 65536) : EngineBound (s.acceptReadout k part) := by
  have hr : RingFits ((s.rings.get k).claimPart part) := by
    simp only [Ring.claimPart]
    split
    · exact { h.rings k with }
    · exact { h.rings k with }
  have hs := h.setRing (k := k) hr
  refine ⟨{ hs with readout := { hs.readout with
    nextId := Nat.mod_lt _ (by decide)
    engine := ⟨h.readout.nextId, Nat.zero_lt_succ _, fun _ => Nat.zero_lt_succ _⟩ } }, fun y hy => ?_⟩
  cases hy
  exact hw

/-! ### The scheduler keeps to the widths -/

section
variable {s : State} (h : Fits s)
include h

theorem Fits.offerFw (bytes : List Byte) : Fits (s.offerFw bytes) := by
  rcases s.offerFw_cases bytes with ⟨_, hb⟩ | ⟨_, _, hb⟩ | ⟨_, _, hb⟩ <;> rw [hb]
  · exact { h with egress := { h.egress with downDiscards := bump32_fits _ } }
  · exact { h with egress := { h.egress with }, fPort := { h.fPort with } }
  · exact { h with egress := { h.egress with fwDrops := bump32_fits _ } }

theorem Fits.closeReduced {records : List OutputRecord} (hl : records.length ≤ 12)
    (hr : ∀ r ∈ records, OutputRecord.Fits r) : Fits (s.closeReduced records) := by
  have none : ∀ r ∈ ([] : List OutputRecord), OutputRecord.Fits r := fun _ h => absurd h List.not_mem_nil
  have hd : DtFrameFits (.reduced records) := ⟨hl, hr⟩
  rcases s.closeReduced_cases records with ⟨_, hb⟩ | ⟨_, hb⟩ <;> rw [hb]
  · exact { h with egress := { h.egress with dt := forall_mem_concat h.egress.dt hd, openFrame := none } }
  · exact { h with egress := { h.egress with reducedDropped := sat32_fits _, openFrame := none } }

theorem Fits.assemble {r : OutputRecord} (hr : OutputRecord.Fits r)
    (ho : s.egress.openFrame.length < 12) : Fits (s.assemble r) := by
  have ha := forall_mem_concat h.egress.openFrame hr
  simp only [State.assemble]
  split_ifs
  · exact { h with egress := { h.egress with reducedDropped := bump32_fits _ } }
  · refine h.closeReduced ?_ ha
    rw [List.length_append, List.length_singleton]
    omega
  · exact { h with egress := { h.egress with openFrame := List.forall_mem_singleton.mpr hr } }
  · exact { h with egress := { h.egress with openFrame := ha } }

theorem Fits.sendC (bytes : List Byte) : Fits (s.sendC bytes) :=
  { h with cPort := { h.cPort with } }

theorem Fits.emptyEgress : Fits s.emptyEgress := by
  refine Fits.tellOccupancy ?_ .f _
  exact { h with egress := { h.egress with
    dt := fun _ hf => absurd hf List.not_mem_nil
    mr := fun _ hf => absurd hf List.not_mem_nil
    openFrame := fun _ hf => absurd hf List.not_mem_nil } }

theorem Fits.emptyOb : Fits s.emptyOb := by
  refine Fits.tellOccupancy ?_ .c _
  exact { h with egress := { h.egress with } }

theorem Fits.restartEgress : Fits s.restartEgress := by
  refine Fits.tellOccupancy (Fits.tellOccupancy ?_ .f _) .c _
  exact { h with egress := { h.egress with
    dt := fun _ hf => absurd hf List.not_mem_nil
    mr := fun _ hf => absurd hf List.not_mem_nil
    openFrame := fun _ hf => absurd hf List.not_mem_nil
    fwDrops := Nat.zero_le _
    downDiscards := Nat.zero_le _
    reducedDropped := Nat.zero_le _
    obDrops := Nat.zero_le _ } }

theorem Fits.placeReply (place : Fin 4) {r : Reply} (hr : r.results.length ≤ 68) :
    Fits (s.placeReply place r) := by
  rw [State.placeReply_eq]
  refine { h with egress := { h.egress with mr := ?_ } }
  show ∀ x ∈ (if s.egress.held then _ else _), _
  split
  · exact h.egress.mr
  · exact forall_mem_concat (fun x hx => h.egress.mr x (List.mem_of_mem_filter hx)) hr

end

/-! ### The event unit keeps to the widths -/

theorem toRecord_fits {q : EventRequest} (hq : RequestFits q) {serial : Nat} (hs : serial < 65536) :
    RecordFits (q.toRecord serial) := ⟨hs, hq⟩

theorem ownRecord_fits (kind : EventKind) {subject : Nat} (hsub : subject < 256) {count : Option Nat}
    (hc : ∀ n, count = some n → CountFits n) {now serial : Nat} (hn : MarkFits now)
    (hs : serial < 65536) : RecordFits (ownRecord kind subject count now serial) :=
  ⟨hs, hsub, fun _ h => (nomatch h), hc, hn⟩

theorem returnToUnsent_fits {q : List EventRecord} (h : ∀ r ∈ q, RecordFits r) :
    ∀ r ∈ returnToUnsent q, RecordFits r := by
  intro r hr
  obtain ⟨x, hx, rfl⟩ := List.mem_map.mp hr
  exact h x hx

theorem markSent_fits {q : List EventRecord} (h : ∀ r ∈ q, RecordFits r) (n : Nat) :
    ∀ r ∈ markSent q n, RecordFits r := by
  induction q generalizing n with
  | nil => simp [markSent]
  | cons r q ih =>
    obtain ⟨hr, hq⟩ := List.forall_mem_cons.mp h
    cases n with
    | zero => exact h
    | succ n =>
      simp only [markSent]
      split
      · exact List.forall_mem_cons.mpr ⟨hr, ih hq _⟩
      · exact List.forall_mem_cons.mpr ⟨hr, ih hq _⟩

section
variable {e : EventUnit} (h : EventsFit e)
include h

theorem EventsFit.settleLoss {now : Nat} (hn : MarkFits now) : EventsFit (e.settleLoss now) := by
  rcases e.settleLoss_cases now with he | ⟨_, _, he⟩ <;> rw [he]
  · exact h
  · have hr := ownRecord_fits .loss (subject := 0) (by decide) (count := some e.pendingLoss)
      (fun n hn => by cases hn; exact h.pendingLoss) hn h.serial
    exact { h with queue := forall_mem_concat h.queue hr, serial := wrap16_lt _, pendingLoss := Nat.zero_le _ }

theorem EventsFit.enqueue {q : EventRequest} (hq : RequestFits q) : EventsFit (e.enqueue q) := by
  rcases e.enqueue_cases q with ⟨_, he⟩ | ⟨_, he⟩ <;> rw [he]
  · exact { h with queue := forall_mem_concat h.queue (toRecord_fits hq h.serial), serial := wrap16_lt _ }
  · exact { h with pendingLoss := bump32_fits _, lifetimeLoss := bump32_fits _ }

theorem EventsFit.started {cause : Nat} (hc : cause < 256) : EventsFit (e.started cause) :=
  { h with
    queue := List.forall_mem_singleton.mpr
      (ownRecord_fits .started hc (count := none) (fun _ hn => (nomatch hn)) (by decide) (by decide))
    serial := wrap16_lt _ }

theorem EventsFit.suspend : EventsFit e.suspend :=
  { h with queue := returnToUnsent_fits h.queue, retry := Nat.zero_le _, activeRetry := fun _ => Nat.zero_le _ }

theorem EventsFit.resume : EventsFit e.resume := by
  simp only [EventUnit.resume]
  split
  · exact { h with queue := returnToUnsent_fits h.queue, retry := Nat.zero_le _,
                   activeRetry := fun _ => Nat.zero_le _ }
  · exact h

theorem EventsFit.resynced : EventsFit e.resynced :=
  { h with queue := returnToUnsent_fits h.queue, retry := Nat.zero_le _, activeRetry := fun _ => Nat.zero_le _ }

theorem EventsFit.afterGrant (g : Global) : EventsFit (e.afterGrant g) :=
  { h with queue := markSent_fits h.queue _ }

/-- A timeout in ACTIVE counts one retry more, and past the limit delivery is no longer ACTIVE (R118). -/
theorem EventsFit.timeout {limit : Nat} (hl : limit ≤ 15) (ha : e.retry ≤ 15) :
    EventsFit (e.timeout limit) := by
  have hr : e.retry + 1 ≤ 16 := by omega
  simp only [EventUnit.timeout]
  split
  · exact { h with retry := hr, activeRetry := fun hd => (nomatch hd) }
  · have hle : e.retry + 1 ≤ 15 := by omega
    exact { h with queue := returnToUnsent_fits h.queue, retry := hr, activeRetry := fun _ => hle }

theorem EventsFit.acked (n timeout : Nat) {now : Nat} (hn : MarkFits now) :
    EventsFit (e.acked n timeout now) := by
  have hd : EventsFit { e with
      queue := e.queue.drop n, retry := 0, timer := e.timerAfterAck (e.queue.drop n) timeout } :=
    { h with queue := fun r hr => h.queue r (List.mem_of_mem_drop hr), retry := Nat.zero_le _,
             activeRetry := fun _ => Nat.zero_le _ }
  exact hd.settleLoss hn

theorem EventsFit.restarted (cUp : Bool) : EventsFit (e.restarted cUp) := by
  have hd : EventsFit { e with
      pendingLoss := 0, lifetimeLoss := 0, delivery := if cUp then .active else .suspended, retry := 0,
      timer := .stopped } :=
    { h with pendingLoss := Nat.zero_le _, lifetimeLoss := Nat.zero_le _, retry := Nat.zero_le _,
             activeRetry := fun _ => Nat.zero_le _ }
  exact hd.started (by decide)

end

/-! ### The grants keep to the widths -/

theorem Fits.grantDt {s t : State} (h : EngineBound s) (hs : ReadoutSound s) (ht : s.grantDt = some t) :
    Fits t := by
  simp only [State.grantDt] at ht
  split at ht
  · next f fs hdt =>
    have hsend : ∀ bytes, EngineBound (State.sendC
        { s with egress := { s.egress with dt := fs, streak := 0 } } bytes) := by
      intro bytes
      have hdrop : Fits { s with egress := { s.egress with dt := fs, streak := 0 } } :=
        { h.fits with egress := { h.fits.egress with
            dt := fun g hg => h.fits.egress.dt g (hdt ▸ List.mem_cons_of_mem f hg) } }
      exact ⟨hdrop.sendC bytes, h.total⟩
    split at ht
    · next g =>
      refine ((hsend _).engineGranted (fun x hx hl => ?_) |>.examineEngine ht).fits
      have hx : s.readout.engine = .sending x := hx
      have htotal := h.total x hx
      simp only [ReadoutSound, hx, hdt, readoutFrames, framesRun] at hs
      obtain ⟨⟨⟨_, _, _, _, _, hlast, _⟩, _⟩, _⟩ := hs
      have : ¬ x.total ≤ x.wordsSent + g.words.length := fun hle => by simp [hlast.mpr hle] at hl
      omega
    · exact ((hsend _).examineEngine ht).fits
  · cases ht; exact h.fits

theorem Fits.grant {s t : State} (h : EngineBound s) (hs : ReadoutSound s) {c : Claimant}
    (ht : s.grant c = some t) : Fits t := by
  cases c with
  | mr =>
    cases ht
    simp only [State.grantMr]
    split
    · next x xs hmr =>
      refine Fits.sendC ?_ _
      exact { h.fits with egress := { h.fits.egress with
        mr := fun y hy => h.fits.egress.mr y (hmr ▸ List.mem_cons_of_mem x hy) } }
    · exact h.fits
  | ev =>
    cases ht
    refine Fits.sendC ?_ _
    exact { h.fits with events := h.fits.events.afterGrant _ }
  | fw =>
    cases ht
    simp only [State.grantFw]
    split
    · refine Fits.sendC (Fits.tellOccupancy ?_ .f _) _
      exact { h.fits with egress := { h.fits.egress with } }
    · exact h.fits
  | dt => exact Fits.grantDt h hs ht

end Sys2Proof

/-! ### The requests keep to the widths -/

namespace Sys2Proof

open Sys2Proof.Machine

/-- A result is at most the longest entry record, that of a ring (section 10.5). -/
abbrev ResultsFit (results : List Byte) : Prop := results.length ≤ 68

theorem clearCounts_fits (x : Port) : PortFits x.clearCounts :=
  ⟨Nat.zero_le _, Nat.zero_le _, Nat.zero_le _⟩

section
variable {s : State} (h : Fits s)
include h

theorem Fits.finishRequest : Fits s.finishRequest := { h with }

theorem Fits.repliedOnly (q : Request) {r : Reply} (hr : ReadyReply s r) : Fits (repliedOnly s q r) := by
  refine Fits.finishRequest (h.placeReply _ ?_)
  rcases hr with hr | ⟨tag, c, hc, rfl⟩
  · rw [hr]; exact Nat.zero_le _
  · exact h.cache tag c hc

theorem Fits.answered (q : Request) (status : Status) {results : List Byte} (hr : ResultsFit results) :
    Fits (answered s q status results) := by
  have hc : CacheFits (s.management.cache.set (tagPlace q.tag)
      (some ⟨q.number, q.reply status results⟩)) := by
    intro tag
    refine Table.forall_get_set
      (P := fun o : Option CachedReply => ∀ x, o = some x → x.reply.results.length ≤ 68)
      h.cache (fun x hx => ?_) tag
    cases hx
    exact hr
  refine Fits.finishRequest (Fits.placeReply ?_ _ hr)
  exact { h with cache := hc }

theorem Fits.request {t : State} {code : Nat} {run : List Byte → State → Option Answer}
    (ht : s.request code run = .next t)
    (hr : ∀ args status results u, run args s = some (status, results, u) → Fits u ∧ ResultsFit results) :
    Fits t := by
  rcases State.request_next ht with rfl | ⟨q, r, hq, rfl⟩ | ⟨q, status, results, u, hu, rfl⟩
  · exact h
  · exact h.repliedOnly q hq
  · obtain ⟨hf, hl⟩ := hr _ _ _ _ hu
    exact hf.answered q status hl

/-- A request whose execution has no results. -/
theorem Fits.request_bare {t : State} {code : Nat} {run : List Byte → State → Option Answer}
    (ht : s.request code run = .next t)
    (hr : ∀ args status results u, run args s = some (status, results, u) → results = [] ∧ Fits u) :
    Fits t := by
  refine h.request ht fun args status results u hu => ?_
  obtain ⟨rfl, hf⟩ := hr args status results u hu
  exact ⟨hf, Nat.zero_le _⟩

theorem Fits.gather {t : State} {code : Nat} {blocks : List Block} {work : Block → State → State}
    {answer : State → Answer} (ht : s.gather code blocks work answer = .next t)
    (hw : ∀ b, Fits (work b s)) (ha : Fits (answer s).2.2) (hl : ResultsFit (answer s).2.1) : Fits t := by
  rcases State.gather_next ht with rfl | ⟨q, r, hq, rfl⟩ | ⟨b, rfl⟩ | ⟨q, rfl⟩
  · exact h
  · exact h.repliedOnly q hq
  · exact { hw b with }
  · exact ha.answered q _ hl

theorem Fits.statusShare (b : Block) : Fits (State.statusShare b s) := by
  cases b <;> exact { h with }

theorem Fits.clearShare (b : Block) : Fits (State.clearShare b s) := by
  have hn : ∀ e : NodeEntry, NodeFits e → NodeFits e.clearCounts := fun e he =>
    { he with accepted := Nat.zero_le _, gaps := Nat.zero_le _, missing := Nat.zero_le _,
              stale := Nat.zero_le _ }
  cases b with
  | fPort => exact { h with fPort := clearCounts_fits _ }
  | cPort => exact { h with cPort := clearCounts_fits _ }
  | classifier =>
    exact { h with nodes := Table.forall_get_map h.nodes hn, staleFrames := Nat.zero_le _ }
  | readout =>
    exact { h with readout := { h.readout with completed := Nat.zero_le _, aborted := Nat.zero_le _ } }
  | events => exact { h with events := { h.events with lifetimeLoss := Nat.zero_le _ } }
  | egress =>
    exact { h with egress := { h.egress with
      fwDrops := Nat.zero_le _, downDiscards := Nat.zero_le _, reducedDropped := Nat.zero_le _,
      obDrops := Nat.zero_le _ } }
  | reduction | watch | capture => exact h

end

/-! #### RESTART -/

theorem slotRestarted_fits (x : Slot) (h : SlotFits x) : SlotFits x.restarted := by
  simp only [Slot.restarted]
  split
  · exact { h with outputIndex := Nat.zero_lt_succ _, brokenWindows := Nat.zero_le _,
                   window := fun _ hw => (nomatch hw) }
  · exact { h with outputIndex := Nat.zero_lt_succ _, brokenWindows := Nat.zero_le _,
                   window := fun _ hw => (nomatch hw) }

theorem ruleBegun_fits {r : Rule} (h : RuleFits r) : RuleFits r.begun :=
  { h with asserts := Nat.zero_le _, lastAssert := fun _ ht => (nomatch ht),
           previous := fun _ hv => (nomatch hv) }

theorem ruleRestarted_fits (r : Rule) (h : RuleFits r) : RuleFits r.restarted := by
  simp only [Rule.restarted]
  split
  · exact ruleBegun_fits h
  · exact { ruleBegun_fits h with }

/-- A ring begun has neither a pending trigger nor a capture record (R68). -/
theorem ringBegun_fits {r : Ring} (h : RingFits r) : RingFits r.begun := by
  simp only [Ring.begun]
  split
  · exact { h with pending := fun _ hp => (nomatch hp), record := fun _ hc => (nomatch hc) }
  · exact { h with pending := fun _ hp => (nomatch hp), record := fun _ hc => (nomatch hc) }

theorem ringRestarted_fits (r : Ring) (h : RingFits r) : RingFits r.restarted := by
  simp only [Ring.restarted]
  split
  · exact { ringBegun_fits h with dropped := Nat.zero_le _, lost := Nat.zero_le _ }
  · exact { h with dropped := Nat.zero_le _, lost := Nat.zero_le _, pending := fun _ hp => (nomatch hp),
                   record := fun _ hc => (nomatch hc) }

theorem channelRestarted_fits (c : Channel) : ChannelFits c.restarted :=
  ⟨Nat.zero_lt_succ _, Nat.zero_le _, fun _ hv => (nomatch hv)⟩

theorem Fits.restartShare {s : State} (h : Fits s) (b : Block) : Fits (State.restartShare b s) := by
  cases b with
  | classifier =>
    exact { h with
      nodes := Table.forall_get_map h.nodes fun _ _ => nodeFits_reset
      channels := Table.forall_get_map h.channels fun c _ => channelRestarted_fits c
      staleFrames := Nat.zero_le _ }
  | reduction => exact { h with slots := Table.forall_get_map h.slots slotRestarted_fits }
  | watch => exact { h with rules := Table.forall_get_map h.rules ruleRestarted_fits }
  | capture =>
    exact { h.restartEgress with
      rings := Table.forall_get_map h.rings ringRestarted_fits
      readout := { h.readout with completed := Nat.zero_le _, aborted := Nat.zero_le _, engine := trivial } }
  | events => exact { h with timebase := Nat.zero_lt_succ _, events := h.events.restarted _ }
  | fPort => exact { h with fPort := clearCounts_fits _ }
  | cPort => exact { h with cPort := clearCounts_fits _ }
  | readout | egress => exact h

theorem Fits.restartManagement {s : State} (h : Fits s) : Fits s.restartManagement := by
  have hc : CacheFits (Table.replicate 4 none) := fun tag x hx => by simp at hx
  exact { h with cache := hc, egress := { h.egress with mr := fun _ hx => absurd hx List.not_mem_nil } }

/-! #### Table access -/

theorem optional4_length (x : Option (List Byte)) (h : ∀ bs, x = some bs → bs.length = 4) :
    (optional4 x).length = 5 := by
  cases x with
  | none => rfl
  | some bs => simp [optional4, h bs rfl]

theorem optional4_map_length {α : Type} (f : α → List Byte) (hf : ∀ a, (f a).length = 4)
    (x : Option α) : (optional4 (x.map f)).length = 5 := by
  refine optional4_length _ fun bs hb => ?_
  obtain ⟨a, _, rfl⟩ := Option.map_eq_some_iff.mp hb
  exact hf a

theorem snapshotBytes_length (x : SnapshotState) : x.bytes.length = 34 := by
  cases hp : x.pending <;> cases hr : x.record <;>
    simp [SnapshotState.bytes, hp, hr, bytes2, bytes4]

theorem ringRecord_length (r : Ring) : r.entryRecord.length = 68 := by
  cases hm : r.mode <;>
    simp [Ring.entryRecord, hm, bytes2, bytes4, StreamState.bytes, Half.bytes, snapshotBytes_length]

/-- Every entry record is at most a ring's (section 10.5). -/
theorem entryRecord_fits {s : State} {x : TableId} {i : Nat} {record : List Byte}
    (h : s.entryRecord x i = some record) : ResultsFit record := by
  have h4 : ∀ n, (bytes4 n).length = 4 := fun _ => rfl
  have hs4 : ∀ v, (signed4 v).length = 4 := fun _ => rfl
  cases x <;> simp only [State.entryRecord] at h
  case channel =>
    obtain ⟨c, _, rfl⟩ := Option.map_eq_some_iff.mp h
    simp [Channel.entryRecord, h4, bytes2, optional4_map_length _ hs4]
  case node =>
    obtain ⟨n, _, rfl⟩ := Option.map_eq_some_iff.mp h
    simp [NodeEntry.entryRecord, h4, bytes2]
  case slot =>
    obtain ⟨k, _, rfl⟩ := Option.map_eq_some_iff.mp h
    simp [Slot.entryRecord, h4]
  case rule =>
    obtain ⟨k, _, rfl⟩ := Option.map_eq_some_iff.mp h
    simp [Rule.entryRecord, h4, hs4, optional4_map_length _ hs4, optional4_map_length _ h4]
  case ring =>
    obtain ⟨k, _, rfl⟩ := Option.map_eq_some_iff.mp h
    exact (ringRecord_length _).le
  case global =>
    split at h <;> cases h
    simp [Global.entryRecord]

/-- A field whose old and new values have a property has it after a write. -/
theorem field_keeps {α : Type} {P : α → Prop} {mask k : Nat} {old x : α} {new : Option α}
    (h : field mask k old new = some x) (ho : P old) (hn : ∀ y, new = some y → P y) : P x := by
  rcases field_eq_some h with ⟨_, hx⟩ | ⟨_, rfl⟩
  · exact hn x hx
  · exact ho

theorem slotWrite_fits {x y : Slot} (hx : SlotFits x) {mask : Nat} {v : List Byte}
    (h : x.write mask v = some y) : SlotFits y := by
  have heq := Slot.write_eq_some h
  simp only [Slot.write, Option.bind_eq_some_iff] at h
  obtain ⟨_, _, _, _, _, h2, _, _, _, _, _, _, h⟩ := h
  have he := field_keeps (P := (· ≤ 8)) h2 hx.exponent fun n hn => by
    obtain ⟨rfl, _, hle⟩ := inRange_eq_some hn
    exact hle
  cases h
  rw [heq]
  exact { hx with exponent := he }

theorem ruleWrite_fits {r y : Rule} (hr : RuleFits r) {mask : Nat} {v : List Byte}
    (h : r.write mask v = some y) : RuleFits y := by
  simp only [Rule.write, Option.bind_eq_some_iff] at h
  obtain ⟨_, _, _, _, _, _, _, _, _, h4, _, h5, _, h6, _, _, _, _, _, _, _, _, _, _, h⟩ := h
  have hl := field_keeps h4 hr.low fun u hu => by cases hu; exact readSigned4_fits _ _
  have hh := field_keeps h5 hr.high fun u hu => by cases hu; exact readSigned4_fits _ _
  have hy := field_keeps (P := (· ≤ 2147483647)) h6 hr.hyst fun n hn => by
    obtain ⟨rfl, _, hle⟩ := inRange_eq_some hn
    exact hle
  cases h
  exact { hr with low := hl, high := hh, hyst := hy }

/-- What a write leaves in flight is some of what was (assumption 9). -/
theorem items_rewritten {p : Prop} [Decidable p] {inbox : List StreamItem}
    (h : ∀ item ∈ inbox, ItemFits item) : ∀ item ∈ (if p then inbox else []), ItemFits item := by
  split
  · exact h
  · exact fun _ hi => absurd hi List.not_mem_nil

theorem Fits.writeEntry {s : State} (h : Fits s) (x : TableId) (i mask : Nat) (v : List Byte) :
    Fits (s.writeEntry x i mask v).2 := by
  cases x with
  | channel =>
    refine atIndex_keeps h fun c => writeChecked_keeps h fun y hy _ _ => h.setChannel ?_
    rw [Channel.write_eq_some hy]
    exact { h.channels c with }
  | node => exact h
  | slot =>
    refine atIndex_keeps h fun k => writeChecked_keeps h fun y hy _ _ => h.setSlot ?_
    have hf := slotWrite_fits (h.slots k) hy
    rw [Slot.rewritten_eq]
    exact { hf with items := items_rewritten hf.items }
  | rule =>
    refine atIndex_keeps h fun k => writeChecked_keeps h fun y hy _ _ => h.setRule ?_
    have hf := ruleWrite_fits (h.rules k) hy
    rw [Rule.rewritten_eq]
    exact { hf with items := items_rewritten hf.items }
  | ring =>
    refine atIndex_keeps h fun k => writeChecked_keeps h fun y hy _ _ => h.setRing ?_
    have hf : RingFits y := by
      rw [(Ring.write_eq_some hy).2]
      exact { h.rings k with }
    rw [Ring.rewritten_eq]
    exact { hf with items := items_rewritten hf.items }
  | global =>
    simp only [State.writeEntry]
    split
    · exact writeChecked_keeps h fun _ _ _ _ => { h with }
    · exact h

theorem Fits.enableEntry {s : State} (h : Fits s) (x : TableId) (i : Nat) :
    Fits (s.enableEntry x i).2 := by
  cases x with
  | channel =>
    refine atIndex_keeps h fun c => ?_
    simp only [State.enableChannel]
    split_ifs
    · exact h
    · exact h
    · exact h
    · exact (h.passBy _).setChannel (channelRestarted_fits { s.channel c with enabled := true })
  | node => exact h
  | slot =>
    refine atIndex_keeps h fun k => ?_
    simp only [State.enableSlot]
    split_ifs
    · exact h
    · exact h
    · exact h
    · have hx : SlotFits (s.slots.get k).enabledFresh :=
        { h.slots k with outputIndex := Nat.zero_lt_succ _, brokenWindows := Nat.zero_le _,
                         window := fun _ hw => (nomatch hw) }
      exact (h.passBy _).setSlot hx
  | rule =>
    refine atIndex_keeps h fun k => ?_
    have hr : RuleFits (s.rules.get k).enabledFresh := { ruleBegun_fits (h.rules k) with }
    simp only [State.enableRule]
    split_ifs
    · exact h
    · exact h
    · exact h
    · exact h
    · exact h
    · exact h
    · exact h.setRule hr
  | ring =>
    refine atIndex_keeps h fun k => ?_
    have hr : RingFits (s.rings.get k).enabledFresh :=
      { ringBegun_fits (h.rings k) with dropped := Nat.zero_le _, lost := Nat.zero_le _ }
    simp only [State.enableRing]
    split_ifs
    · exact h
    · exact h
    · exact h
    · exact h
    · exact h
    · exact h.setRing hr
  | global => exact h

theorem Fits.disableEntry {s : State} (h : Fits s) (x : TableId) (i : Nat) :
    Fits (s.disableEntry x i).2 := by
  cases x with
  | channel =>
    refine atIndex_keeps h fun c => ?_
    simp only [State.disableChannel]
    split_ifs
    · exact h
    · exact h
    · exact h.setChannel { h.channels c with }
  | node => exact h
  | slot =>
    refine atIndex_keeps h fun k => ?_
    simp only [State.disableSlot]
    split_ifs
    · exact h
    · exact h
    · exact h.setSlot { h.slots k with window := fun _ hw => (nomatch hw) }
  | rule =>
    refine atIndex_keeps h fun k => ?_
    simp only [State.disableRule]
    split_ifs
    · exact h
    · exact h.setRule { h.rules k with previous := fun _ hv => (nomatch hv) }
  | ring =>
    refine atIndex_keeps h fun k => ?_
    simp only [State.disableRing]
    split_ifs
    · exact h
    · exact h
    · exact h
    · exact h.setRing { h.rings k with
        pending := fun _ hp => (nomatch hp), record := fun _ hc => (nomatch hc) }
  | global => exact h

/-! #### Rings and readouts -/

theorem Fits.releaseHalf {s : State} (h : Fits s) (k : Fin 8) (g : HalfId) :
    Fits (s.releaseHalf k g).2 := by
  simp only [State.releaseHalf]
  split_ifs
  · exact h
  · exact h
  · split
    · exact h
    · exact h
    · exact h
    · exact h.setRing { h.rings k with }

theorem Fits.flushRing {s : State} (h : Fits s) {k : Fin 8} (hb : RingBounds (s.rings.get k)) :
    Fits (s.flushRing k).2 := by
  simp only [State.flushRing]
  split_ifs with he hm
  · exact h
  · exact h
  · split
    · split
      · exact h
      · have hmode : (s.rings.get k).mode = .stream := by
          cases hx : (s.rings.get k).mode
          · rfl
          · exact absurd hx hm
        have hfill : ∀ g, CountFits ((s.rings.get k).stream.half g).fill := fun g =>
          (hb.fill (by simpa using he) hmode g).trans (by decide)
        obtain ⟨hr, hq⟩ := closeHalf_fits (h.rings k) hfill k h.timebase _
        exact (h.setRing hr).requestEvents hq
    · exact h

theorem Fits.freezeRing {s : State} (h : Fits s) {k : Fin 8} (hb : RingBounds (s.rings.get k)) :
    Fits (s.freezeRing k).2 := by
  simp only [State.freezeRing]
  split_ifs
  · exact h
  · exact h
  · exact h
  · exact h.ringTakesFreeze (h.rings k) hb .manual

theorem Fits.rearmRing {s : State} (h : Fits s) (k : Fin 8) : Fits (s.rearmRing k).2 := by
  simp only [State.rearmRing]
  split_ifs
  · exact h
  · exact h
  · split
    · exact h
    · exact h.setRing { h.rings k with
        pending := fun _ hp => (nomatch hp), record := fun _ hc => (nomatch hc) }
    · exact h

theorem Fits.startSlot {s : State} (h : Fits s) (k : Fin 16) : Fits (s.startSlot k).2 := by
  simp only [State.startSlot]
  split
  · exact h.setSlot (afterStart_fits (h.slots k))
  · exact h

theorem Fits.readRing {s u : State} (h : Fits s) {k : Fin 8} (hb : RingBounds (s.rings.get k))
    {part : RingPart} {status : Status} {results : List Byte}
    (hu : s.readRing k part = some (status, results, u)) : Fits u ∧ ResultsFit results := by
  simp only [State.readRing] at hu
  split at hu
  · next ha =>
    obtain ⟨v, hv, heq⟩ := Option.map_eq_some_iff.mp hu
    cases heq
    have hw : (s.rings.get k).partWords part ≤ 65536 := by
      simp only [State.readRingStatus] at ha
      split_ifs at ha with _ he hp
      exact partWords_le hb (by simpa using he) (by simpa using hp)
    refine ⟨((h.acceptReadout hw).examineEngine hv).fits, ?_⟩
    simp [ResultsFit, State.readRingResults, bytes4]
  · cases hu
    exact ⟨h, Nat.zero_le _⟩

end Sys2Proof

/-! ### Every command keeps to the widths (O25) -/

namespace Sys2Proof

open Sys2Proof.Machine

/-- The invariants of other chapters that the widths rest on. -/
structure WidthPremises (s : State) : Prop where
  globals : GlobalInRange s
  queues : QueuesBounded s
  delivery : DeliverySound s
  slots : SlotsSound s
  rings : RingsSound s
  ranges : RangesSound s
  fills : FillsSound s
  readoutInRange : ReadoutInRange s
  readoutSound : ReadoutSound s

/-- The oldest item and the others of an inbox whose items all have a property. -/
theorem forall_cons_of_eq {α : Type} {P : α → Prop} {l : List α} {x : α} {xs : List α}
    (h : ∀ y ∈ l, P y) (hl : l = x :: xs) : P x ∧ ∀ y ∈ xs, P y :=
  List.forall_mem_cons.mp (hl ▸ h)

theorem forall_takeFirst {α : Type} {P : α → Prop} {p : α → Bool} {l : List α} {x : α} {rest : List α}
    (h : ∀ y ∈ l, P y) (hl : takeFirst p l = some (x, rest)) : P x ∧ ∀ y ∈ rest, P y := by
  obtain ⟨before, after, rfl, rfl, _⟩ := takeFirst_eq_some hl
  obtain ⟨hb, ha⟩ := List.forall_mem_append.mp h
  obtain ⟨hx, ha⟩ := List.forall_mem_cons.mp ha
  exact ⟨hx, forall_mem_append hb ha⟩

theorem readings_results_length (x : Readings) : x.results.length = 68 := rfl

theorem hardReset_fits (x : Port) : PortFits x.hardReset :=
  ⟨Nat.zero_le _, Nat.zero_le _, Nat.zero_le _⟩

theorem tick_fits {x : Port} (h : PortFits x) : PortFits x.tick := by
  rw [Port.tick_eq]
  exact { h with }

theorem afterMark_fits {r : Rule} (hr : RuleFits r) : RuleFits r.afterMark :=
  { hr with previous := fun _ hv => (nomatch hv) }

/-! #### What remains in flight fits -/

theorem SlotFits.setInbox {x : Slot} (h : SlotFits x) {items : List StreamItem}
    (hi : ∀ item ∈ items, ItemFits item) : SlotFits { x with inbox := items } :=
  { h with items := hi }

theorem RuleFits.setInbox {r : Rule} (h : RuleFits r) {items : List StreamItem}
    (hi : ∀ item ∈ items, ItemFits item) : RuleFits { r with inbox := items } :=
  { h with items := hi }

theorem RingFits.setInbox {r : Ring} (h : RingFits r) {items : List StreamItem}
    (hi : ∀ item ∈ items, ItemFits item) : RingFits { r with inbox := items } :=
  { h with items := hi }

theorem RingBounds.setInbox {r : Ring} (h : RingBounds r) (items : List StreamItem) :
    RingBounds { r with inbox := items } :=
  { h with }

theorem RingFits.setFreezes {r : Ring} (h : RingFits r) (rules : List (Fin 32)) :
    RingFits { r with freezes := rules } :=
  { h with }

theorem RingBounds.setFreezes {r : Ring} (h : RingBounds r) (rules : List (Fin 32)) :
    RingBounds { r with freezes := rules } :=
  { h with }

theorem EventsFit.setLinkChanges {e : EventUnit} (h : EventsFit e) (xs : List LinkChange) :
    EventsFit { e with linkChanges := xs } :=
  { h with }

/-- What an operation on the entry an index names gives, as a bare answer, fits where the operation does. -/
theorem Fits.bare_atIndex {n : Nat} {i : Option (Fin n)} {s u : State} (h : Fits s)
    {op : Fin n → Status × State} (ho : ∀ k, Fits (op k).2) {status : Status} {results : List Byte}
    (hu : some (bare (atIndex i s op)) = some (status, results, u)) : results = [] ∧ Fits u := by
  cases hu
  exact ⟨rfl, atIndex_keeps h fun k => ho k⟩

section
variable {s t : State} (h : Fits s)
include h

theorem Fits.tick : Fits s.tick :=
  { h with timebase := wrap32_fits _
           fPort := tick_fits h.fPort
           cPort := tick_fits h.cPort
           events := { h.events with }
           egress := { h.egress with } }

theorem Fits.execHardReset {cause : ResetCause} {straps : Fin 16}
    (ht : execHardReset cause straps s = .next t) : Fits t := by
  simp only [Machine.execHardReset] at ht
  split at ht <;> cases ht
  · exact { fits_resetWith straps with fPort := hardReset_fits _, cPort := hardReset_fits _ }
  · exact h

theorem Fits.execInitialisationComplete (ht : execInitialisationComplete s = .next t) : Fits t := by
  simp only [Machine.execInitialisationComplete] at ht
  split at ht <;> cases ht
  · exact { h with timebase := Nat.zero_lt_succ _
                   memory := fun _ hc => absurd hc List.not_mem_nil
                   events := h.events.started (by decide)
                   fPort := { h.fPort with }
                   cPort := { h.cPort with } }
  · exact h

/-! #### The ports -/

theorem Fits.execReceiveTrain {p : PortId} {heard : Bool} (ht : execReceiveTrain p heard s = .next t) :
    Fits t := by
  have hc : Fits (s.setPort p (s.port p).countTrain) := h.setPort { h.port p with }
  simp only [Machine.execReceiveTrain] at ht
  split at ht
  · cases ht; exact h
  · split at ht <;> cases ht
    · exact hc.enterUp p
    · exact hc
  · split at ht <;> cases ht
    · exact h
    · exact h.leaveUp p

theorem Fits.restartTraining (p : PortId) : Fits (s.setPort p (s.port p).restartTraining) :=
  h.setPort { h.port p with }

theorem Fits.execUndecodableSymbol {p : PortId} (ht : execUndecodableSymbol p s = .next t) : Fits t := by
  simp only [Machine.execUndecodableSymbol] at ht
  split at ht <;> cases ht
  · exact h.restartTraining p
  · exact h

theorem Fits.execLossOfLock {p : PortId} (ht : execLossOfLock p s = .next t) : Fits t := by
  simp only [Machine.execLossOfLock] at ht
  split at ht <;> cases ht
  · exact h.leaveUp p
  · exact h.restartTraining p
  · exact h

theorem Fits.execFrameReceived {p : PortId} {bytes : List Byte}
    (ht : execFrameReceived p bytes s = .next t) : Fits t := by
  simp only [Machine.execFrameReceived] at ht
  split at ht <;> cases ht
  · exact h.takeFrame p bytes
  · exact h

theorem Fits.execHoldSentChange {p : PortId} (ht : execHoldSentChange p s = .next t) : Fits t := by
  simp only [Machine.execHoldSentChange] at ht
  split at ht
  · cases ht; exact h
  · next o os _ =>
    cases ht
    have hx : PortFits { s.port p with occupancy := os } := { h.port p with }
    exact h.setPort (takeOccupancy_fits p hx o)

theorem Fits.execFlowSymbolRepeat {p : PortId} (ht : execFlowSymbolRepeat p s = .next t) : Fits t := by
  simp only [Machine.execFlowSymbolRepeat] at ht
  have hx : ∀ n y, PortFits ({ s.port p with flowElapsed := n }.sendSymbol y) :=
    fun _ _ => { h.port p with }
  split at ht <;> obtain rfl := Host.Outcome.next.inj ht
  · exact h.setPort (hx _ _)
  · exact h

theorem Fits.execFrameSendComplete {p : PortId} (ht : execFrameSendComplete p s = .next t) : Fits t := by
  simp only [Machine.execFrameSendComplete] at ht
  split at ht <;> cases ht
  · exact h.setPort { h.port p with }
  · exact h

/-! #### The classifier, the slots and the rules -/

theorem Fits.setInbox (items : List ClassifierItem) : Fits (s.setInbox items) := { h with }

theorem Fits.execSampleFrameTaken (ht : execSampleFrameTaken s = .next t) : Fits t := by
  simp only [Machine.execSampleFrameTaken] at ht
  split at ht <;> cases ht
  · exact (h.setInbox _).takeSampleFrame _
  · exact h

theorem Fits.execFPortLeavingUpClassifier (ht : execFPortLeavingUpClassifier s = .next t) : Fits t := by
  simp only [Machine.execFPortLeavingUpClassifier] at ht
  split at ht <;> obtain rfl := Host.Outcome.next.inj ht
  · exact (((h.setInbox _).passBy _).placeMarks _).unseeNodes
  · exact h

theorem Fits.execSlotTakeSample (hs : SlotsSound s) {k : Fin 16}
    (ht : execSlotTakeSample k s = .next t) : Fits t := by
  simp only [Machine.execSlotTakeSample] at ht
  split at ht
  · next hi =>
    cases ht
    obtain ⟨⟨hv, hidx⟩, hrest⟩ := forall_cons_of_eq (h.slots k).items hi
    exact h.slotTakesSample ((h.slots k).setInbox hrest) (hs k) hv hidx
  · cases ht; exact h

theorem Fits.execSlotTakeGapMark (hs : SlotsSound s) {k : Fin 16}
    (ht : execSlotTakeGapMark k s = .next t) : Fits t := by
  simp only [Machine.execSlotTakeGapMark] at ht
  split at ht
  · next hi =>
    cases ht
    obtain ⟨_, hrest⟩ := forall_cons_of_eq (h.slots k).items hi
    exact h.slotTakesMark ((h.slots k).setInbox hrest) (hs k)
  · cases ht; exact h

theorem Fits.execSlotStart {k : Fin 16} (ht : execSlotStart k s = .next t) : Fits t := by
  simp only [Machine.execSlotStart] at ht
  split at ht <;> cases ht
  · exact h
  · exact h.setSlot (afterStart_fits { h.slots k with })

theorem Fits.execRuleTakeValue {k : Fin 32} (ht : execRuleTakeValue k s = .next t) : Fits t := by
  simp only [Machine.execRuleTakeValue] at ht
  split at ht
  · cases ht; exact h
  · next hi =>
    obtain ⟨hitem, hrest⟩ := forall_cons_of_eq (h.rules k).items hi
    split at ht
    · next hvalue =>
      cases ht
      obtain ⟨hv, hidx⟩ := valueOf_fits hitem hvalue
      exact h.ruleTakesValue ((h.rules k).setInbox hrest) hv hidx
    · cases ht; exact h

theorem Fits.execRuleTakeGapMark {k : Fin 32} (ht : execRuleTakeGapMark k s = .next t) : Fits t := by
  simp only [Machine.execRuleTakeGapMark] at ht
  split at ht
  · next hi =>
    cases ht
    obtain ⟨_, hrest⟩ := forall_cons_of_eq (h.rules k).items hi
    refine h.setRule ?_
    split
    · exact afterMark_fits ((h.rules k).setInbox hrest)
    · exact (h.rules k).setInbox hrest
  · cases ht; exact h

/-! #### The rings -/

theorem Fits.execRingTakeItem {k : Fin 8} (hb : RingBounds (s.rings.get k))
    (ht : execRingTakeItem k s = .next t) : Fits t := by
  simp only [Machine.execRingTakeItem] at ht
  split at ht
  · cases ht; exact h
  · cases ht; exact h
  · next hi =>
    obtain ⟨hitem, hrest⟩ := forall_cons_of_eq (h.rings k).items hi
    exact h.ringTakesWords ((h.rings k).setInbox hrest) (hb.setInbox _) hitem
      (captureOutcome_eq_next.mp ht)

theorem Fits.execRingTakeGapMark {k : Fin 8} (ht : execRingTakeGapMark k s = .next t) : Fits t := by
  simp only [Machine.execRingTakeGapMark] at ht
  split at ht
  · next hi =>
    cases ht
    obtain ⟨_, hrest⟩ := forall_cons_of_eq (h.rings k).items hi
    exact h.setRing (takeMark_fits ((h.rings k).setInbox hrest))
  · cases ht; exact h

theorem Fits.execRingFreeze {k : Fin 8} {rule : Fin 32} (hb : RingBounds (s.rings.get k))
    (ht : execRingFreeze k rule s = .next t) : Fits t := by
  simp only [Machine.execRingFreeze] at ht
  split at ht <;> cases ht
  · exact h.ringTakesFreeze ((h.rings k).setFreezes _) (hb.setFreezes _) _
  · exact h

/-! #### The egress and the event unit -/

theorem Fits.execFwPlace {way : FwWay} (ht : execFwPlace way s = .next t) : Fits t := by
  cases way <;> simp only [Machine.execFwPlace] at ht
  · split at ht
    · next c cs hc =>
      cases ht
      obtain ⟨_, hrest⟩ := forall_cons_of_eq h.egress.candidates hc
      have hu : Fits { s with egress := { s.egress with candidates := cs } } :=
        { h with egress := { h.egress with candidates := hrest } }
      exact hu.offerFw _
    · cases ht; exact h
  · split at ht
    · next f fs _ =>
      have hu : Fits { s with egress := { s.egress with others := fs } } :=
        { h with egress := { h.egress with } }
      split at ht <;> cases ht
      · exact hu.offerFw _
      · exact h
    · cases ht; exact h

theorem Fits.execAssemblerTakeRecord (hq : QueuesBounded s) {k : Fin 16}
    (ht : execAssemblerTakeRecord k s = .next t) : Fits t := by
  obtain ⟨_, _, _, _, hopen, _⟩ := hq
  simp only [Machine.execAssemblerTakeRecord] at ht
  split at ht
  · next r rest hr =>
    cases ht
    obtain ⟨hx, hrest⟩ := forall_takeFirst h.egress.records hr
    have hu : Fits { s with egress := { s.egress with records := rest } } :=
      { h with egress := { h.egress with records := hrest } }
    exact hu.assemble hx hopen
  · cases ht; exact h

theorem Fits.execReducedHoldExpiry (hq : QueuesBounded s) (ht : execReducedHoldExpiry s = .next t) :
    Fits t := by
  obtain ⟨_, _, _, _, hopen, _⟩ := hq
  simp only [Machine.execReducedHoldExpiry] at ht
  split at ht <;> cases ht
  · exact h.closeReduced hopen.le h.egress.openFrame
  · exact h

theorem Fits.execEventEnqueue {r : Requester} (ht : execEventEnqueue r s = .next t) : Fits t := by
  simp only [Machine.execEventEnqueue] at ht
  split at ht
  · next q rest hr =>
    cases ht
    obtain ⟨hq, hrest⟩ := forall_takeFirst h.events.requests hr
    have he : EventsFit { s.events with requests := rest } := { h.events with requests := hrest }
    exact { h with events := (he.settleLoss h.timebase).enqueue hq }
  · cases ht; exact h

/-- A running timer means that delivery is ACTIVE, where the retry count is at most 15 (section 6.4). -/
theorem Fits.execRetransmitTimeout (hg : GlobalInRange s) (hd : DeliverySound s)
    (ht : execRetransmitTimeout s = .next t) : Fits t := by
  simp only [Machine.execRetransmitTimeout] at ht
  split at ht
  · next hdue =>
    cases ht
    obtain ⟨_, _, _, ⟨_, hlimit⟩, _⟩ := hg
    have hrun : s.events.timer ≠ .stopped := fun hs => by simp [hs, Timer.due] at hdue
    obtain ⟨hactive, _⟩ := hd.1.mp hrun
    exact { h with events := h.events.timeout hlimit (h.events.activeRetry hactive) }
  · cases ht; exact h

theorem Fits.execDeliverySuspend (ht : execDeliverySuspend s = .next t) : Fits t := by
  simp only [Machine.execDeliverySuspend] at ht
  split at ht <;> cases ht
  · exact { h with events := (h.events.setLinkChanges _).suspend }
  · exact h

theorem Fits.execDeliveryResume (ht : execDeliveryResume s = .next t) : Fits t := by
  simp only [Machine.execDeliveryResume] at ht
  split at ht <;> cases ht
  · exact { h with events := (h.events.setLinkChanges _).resume }
  · exact h

theorem Fits.execArbiterGrant (hb : EngineBound s) (hs : ReadoutSound s)
    (ht : execArbiterGrant s = .next t) : Fits t := by
  simp only [Machine.execArbiterGrant] at ht
  split at ht
  · split at ht
    · exact Fits.grant hb hs (captureOutcome_eq_next.mp ht)
    · cases ht; exact h
  · cases ht; exact h

theorem Fits.execObSend (ht : execObSend s = .next t) : Fits t := by
  simp only [Machine.execObSend] at ht
  split at ht
  · split at ht <;> cases ht
    · next f fs _ =>
      have hu : Fits { s with egress := { s.egress with ob := fs } } :=
        { h with egress := { h.egress with } }
      have hs := hu.tellOccupancy .c (.removed fs.length)
      exact { hs with fPort := { hs.fPort with } }
    · exact h
  · cases ht; exact h

theorem Fits.execCPortLeavingUpEgress (ht : execCPortLeavingUpEgress s = .next t) : Fits t := by
  simp only [Machine.execCPortLeavingUpEgress] at ht
  split at ht
  · next xs _ =>
    cases ht
    have hu : Fits { s with egress := { s.egress with cChanges := xs } } :=
      { h with egress := { h.egress with } }
    exact hu.readoutLinkLost.emptyEgress
  · cases ht; exact h

theorem Fits.execCPortComingUpEgress (hb : EngineBound s) (ht : execCPortComingUpEgress s = .next t) :
    Fits t := by
  simp only [Machine.execCPortComingUpEgress] at ht
  split at ht
  · next xs _ =>
    split at ht
    · have hu : EngineBound { s with egress := { s.egress with cChanges := xs, held := false } } :=
        ⟨{ h with egress := { h.egress with } }, hb.total⟩
      exact (hu.examineEngine (captureOutcome_eq_next.mp ht)).fits
    · cases ht; exact h
  · cases ht; exact h

theorem Fits.execFPortLeavingUpEgress (ht : execFPortLeavingUpEgress s = .next t) : Fits t := by
  simp only [Machine.execFPortLeavingUpEgress] at ht
  split at ht <;> cases ht
  · exact h
  · have hu : Fits { s with egress := { s.egress with fLosses := s.egress.fLosses - 1 } } :=
      { h with egress := { h.egress with } }
    exact hu.emptyOb

/-! #### The requests -/

theorem Fits.execIdent (ht : execIdent s = .next t) : Fits t := by
  refine h.request ht fun args _ _ u hu => ?_
  cases hu
  exact ⟨h, Nat.le_of_ble_eq_true rfl⟩

theorem Fits.execReadEntry (ht : execReadEntry s = .next t) : Fits t := by
  refine h.request ht fun args _ _ u hu => ?_
  split at hu <;> cases hu
  · next hr =>
    obtain ⟨x, _, hx⟩ := Option.bind_eq_some_iff.mp hr
    exact ⟨h, entryRecord_fits hx⟩
  · exact ⟨h, Nat.zero_le _⟩

theorem Fits.execWriteEntry (ht : execWriteEntry s = .next t) : Fits t := by
  refine h.request_bare ht fun args _ _ u hu => ?_
  split at hu <;> cases hu
  · exact ⟨rfl, h.writeEntry _ _ _ _⟩
  · exact ⟨rfl, h⟩

theorem Fits.execEnable (ht : execEnable s = .next t) : Fits t := by
  refine h.request_bare ht fun args _ _ u hu => ?_
  split at hu <;> cases hu
  · exact ⟨rfl, h.enableEntry _ _⟩
  · exact ⟨rfl, h⟩

theorem Fits.execDisable (ht : execDisable s = .next t) : Fits t := by
  refine h.request_bare ht fun args _ _ u hu => ?_
  split at hu <;> cases hu
  · exact ⟨rfl, h.disableEntry _ _⟩
  · exact ⟨rfl, h⟩

theorem Fits.execSetTime (ht : execSetTime s = .next t) : Fits t := by
  refine h.request_bare ht fun args _ _ u hu => ?_
  cases hu
  exact ⟨rfl, { h with timebase := read4_lt _ _ }⟩

theorem Fits.execReadRing (hb : ∀ k, RingBounds (s.rings.get k)) (ht : execReadRing s = .next t) :
    Fits t := by
  refine h.request ht fun args _ _ u hu => ?_
  split at hu
  · exact h.readRing (hb _) hu
  · cases hu; exact ⟨h, Nat.zero_le _⟩

theorem Fits.execAbortRead (ht : execAbortRead s = .next t) : Fits t := by
  refine h.request_bare ht fun args _ _ u hu => ?_
  split at hu
  · next hx => cases hu; exact ⟨rfl, h.abortReadout hx⟩
  · cases hu; exact ⟨rfl, h⟩

theorem Fits.execReleaseHalf (ht : execReleaseHalf s = .next t) : Fits t := by
  refine h.request_bare ht fun args _ _ u hu => ?_
  split at hu <;> cases hu
  · exact ⟨rfl, h.releaseHalf _ _⟩
  · exact ⟨rfl, h⟩

theorem Fits.execFlushRing (hb : ∀ k, RingBounds (s.rings.get k)) (ht : execFlushRing s = .next t) :
    Fits t :=
  h.request_bare ht fun _ _ _ _ hu => h.bare_atIndex (fun k => h.flushRing (hb k)) hu

theorem Fits.execFreezeRing (hb : ∀ k, RingBounds (s.rings.get k)) (ht : execFreezeRing s = .next t) :
    Fits t :=
  h.request_bare ht fun _ _ _ _ hu => h.bare_atIndex (fun k => h.freezeRing (hb k)) hu

theorem Fits.execRearmRing (ht : execRearmRing s = .next t) : Fits t :=
  h.request_bare ht fun _ _ _ _ hu => h.bare_atIndex h.rearmRing hu

theorem Fits.execStartSlot (ht : execStartSlot s = .next t) : Fits t :=
  h.request_bare ht fun _ _ _ _ hu => h.bare_atIndex h.startSlot hu

theorem Fits.execEventAck (ht : execEventAck s = .next t) : Fits t := by
  refine h.request ht fun args _ _ u hu => ?_
  split at hu <;> cases hu
  · exact ⟨{ h with events := h.events.acked _ _ h.timebase }, Nat.le_of_ble_eq_true rfl⟩
  · exact ⟨h, Nat.zero_le _⟩

theorem Fits.execEventResync (ht : execEventResync s = .next t) : Fits t := by
  refine h.request_bare ht fun args _ _ u hu => ?_
  split at hu <;> cases hu
  · exact ⟨rfl, h⟩
  · exact ⟨rfl, { h with events := h.events.resynced }⟩

theorem Fits.execReadStatus (ht : execReadStatus s = .next t) : Fits t :=
  h.gather ht h.statusShare h (readings_results_length _).le

theorem Fits.execClearCounters (ht : execClearCounters s = .next t) : Fits t :=
  h.gather ht h.clearShare h (Nat.zero_le _)

theorem Fits.execRestart (ht : execRestart s = .next t) : Fits t :=
  h.gather ht h.restartShare (h.restartShare .events).restartManagement (Nat.zero_le _)

theorem Fits.execUnknownCode (ht : execUnknownCode s = .next t) : Fits t := by
  simp only [Machine.execUnknownCode] at ht
  split at ht
  · next q _ =>
    split at ht
    · cases ht; exact h
    · rcases State.serve_cases (captureOutcome_eq_next.mp ht) with ⟨r, hr, rfl⟩ | ⟨_, _, u, hu, rfl⟩
      · exact h.repliedOnly q hr
      · cases hu; exact h.answered q _ (Nat.zero_le _)
  · cases ht; exact h

theorem Fits.execRequestTooShort (ht : execRequestTooShort s = .next t) : Fits t := by
  simp only [Machine.execRequestTooShort] at ht
  split at ht
  · split at ht <;> cases ht
    · exact (h.chargeMalformed .c).finishRequest
    · exact h
  · cases ht; exact h

/-- Every command keeps to the widths. -/
theorem Fits.exec (hp : WidthPremises s) {i : Instr} (ht : exec i s = .next t) : Fits t := by
  have hb := engineBound h hp.ranges hp.readoutInRange
  have hr := ringBounds hp.ranges hp.fills
  cases i with
  | hardReset => exact h.execHardReset ht
  | initialisationComplete => exact h.execInitialisationComplete ht
  | receiveTrain => exact h.execReceiveTrain ht
  | undecodableSymbol => exact h.execUndecodableSymbol ht
  | receiveHold p => cases ht; exact h.receiveFlow p true
  | receiveGo p => cases ht; exact h.receiveFlow p false
  | lossOfLock => exact h.execLossOfLock ht
  | frameReceived => exact h.execFrameReceived ht
  | holdSentChange => exact h.execHoldSentChange ht
  | flowSymbolRepeat => exact h.execFlowSymbolRepeat ht
  | sampleFrameTaken => exact h.execSampleFrameTaken ht
  | fPortLeavingUpClassifier => exact h.execFPortLeavingUpClassifier ht
  | fwPlace => exact h.execFwPlace ht
  | slotTakeSample => exact h.execSlotTakeSample hp.slots ht
  | slotTakeGapMark => exact h.execSlotTakeGapMark hp.slots ht
  | slotStart => exact h.execSlotStart ht
  | ruleTakeValue => exact h.execRuleTakeValue ht
  | ruleTakeGapMark => exact h.execRuleTakeGapMark ht
  | ringTakeItem k => exact h.execRingTakeItem (hr k) ht
  | ringTakeGapMark => exact h.execRingTakeGapMark ht
  | ringFreeze k => exact h.execRingFreeze (hr k) ht
  | assemblerTakeRecord => exact h.execAssemblerTakeRecord hp.queues ht
  | reducedHoldExpiry => exact h.execReducedHoldExpiry hp.queues ht
  | eventEnqueue => exact h.execEventEnqueue ht
  | retransmitTimeout => exact h.execRetransmitTimeout hp.globals hp.delivery ht
  | deliverySuspend => exact h.execDeliverySuspend ht
  | deliveryResume => exact h.execDeliveryResume ht
  | arbiterGrant => exact h.execArbiterGrant hb hp.readoutSound ht
  | readoutFrameProduce => exact (hb.produceOne (captureOutcome_eq_next.mp ht)).fits
  | terminatingFramePlace => cases ht; exact hb.placeTerminator.fits
  | obSend => exact h.execObSend ht
  | cPortLeavingUpEgress => exact h.execCPortLeavingUpEgress ht
  | cPortComingUpEgress => exact h.execCPortComingUpEgress hb ht
  | fPortLeavingUpEgress => exact h.execFPortLeavingUpEgress ht
  | ident => exact h.execIdent ht
  | readEntry => exact h.execReadEntry ht
  | writeEntry => exact h.execWriteEntry ht
  | enable => exact h.execEnable ht
  | disable => exact h.execDisable ht
  | readStatus => exact h.execReadStatus ht
  | clearCounters => exact h.execClearCounters ht
  | setTime => exact h.execSetTime ht
  | readRing => exact h.execReadRing hr ht
  | abortRead => exact h.execAbortRead ht
  | releaseHalf => exact h.execReleaseHalf ht
  | flushRing => exact h.execFlushRing hr ht
  | freezeRing => exact h.execFreezeRing hr ht
  | rearmRing => exact h.execRearmRing ht
  | startSlot => exact h.execStartSlot ht
  | eventAck => exact h.execEventAck ht
  | eventResync => exact h.execEventResync ht
  | restart => exact h.execRestart ht
  | unknownCode => exact h.execUnknownCode ht
  | frameSendComplete => exact h.execFrameSendComplete ht
  | requestTooShort => exact h.execRequestTooShort ht

theorem Fits.step (hp : WidthPremises s) (ht : step s = .next t) : Fits t := by
  simp only [Machine.step] at ht
  split at ht
  · cases ht; exact h.tick
  · next c rest _ =>
    have hrest : Fits { s with pending := rest } := { h with }
    exact hrest.exec { hp with } ht

end

/-- Settles O25: each block's own lemma says that its operations keep to the widths, and every command is
made of those operations. -/
theorem widthsAreKept : Obligations.WidthsAreKept := by
  rintro s t ⟨globals, queues, delivery, slots, rings, ranges, fills, readoutInRange, readoutSound⟩ h ht
  have hp : WidthPremises s :=
    { globals, queues, delivery, slots, rings, ranges, fills, readoutInRange, readoutSound }
  exact (fits_iff t).mp (((fits_iff s).mpr h).step hp ht)

end Sys2Proof

/-! ## The invariants right after a hard reset (O4)

Each table's invariant is that of its reset entry; each other block stands at its reset value. -/

namespace Sys2Proof

open Sys2Proof.Machine

theorem ringSound_reset : Ring.Sound Ring.reset := ⟨rfl, rfl⟩

theorem partReading_reset (part : RingPart) : partReading Ring.reset part = false := by
  cases part <;> rfl

section
variable (straps : Fin 16)

theorem queuesBounded_resetWith : QueuesBounded (State.resetWith straps) := by
  refine ⟨?_, ?_, ?_, List.nodup_nil, ?_, ?_, ?_⟩ <;> exact Nat.le_of_ble_eq_true rfl

theorem slotsSound_resetWith : SlotsSound (State.resetWith straps) := by
  intro k
  rw [State.resetWith_slot]
  unfold Slot.Sound
  decide

theorem rulesSound_resetWith : RulesSound (State.resetWith straps) := by
  intro k
  rw [State.resetWith_rule]
  unfold Rule.Sound
  decide

theorem ringsSound_resetWith : RingsSound (State.resetWith straps) := by
  refine ⟨fun k => ?_, fun k part => ?_⟩
  · rw [State.resetWith_ring]
    exact ringSound_reset
  · rw [State.resetWith_ring, partReading_reset]
    exact ⟨fun h => (nomatch h), fun ⟨_, hx, _⟩ => (nomatch hx)⟩

theorem rangesSound_resetWith : RangesSound (State.resetWith straps) := by
  intro k
  rw [State.resetWith_ring]
  exact ⟨Nat.zero_le _, rfl, .inl rfl, fun h => (nomatch h), Nat.zero_le _, Nat.zero_le _, Nat.zero_le _,
    .inl rfl, fun _ hc => (nomatch hc)⟩

theorem fillsSound_resetWith : FillsSound (State.resetWith straps) := by
  intro k
  rw [State.resetWith_ring]
  exact ⟨fun _ _ hi => absurd hi List.not_mem_nil, fun he => (nomatch he)⟩

theorem readoutInRange_resetWith : ReadoutInRange (State.resetWith straps) := fun _ _ hx => (nomatch hx)

theorem queueInOrder_resetWith : QueueInOrder (State.resetWith straps) :=
  ⟨Nat.zero_lt_succ _, ⟨0, Nat.zero_lt_succ _, rfl⟩, trivial⟩

theorem deliverySound_resetWith : DeliverySound (State.resetWith straps) :=
  ⟨⟨fun h => absurd rfl h, fun ⟨h, _⟩ => (nomatch h)⟩, fun _ => ⟨rfl, rfl⟩⟩

theorem initialisingAtReset_resetWith : InitialisingAtReset (State.resetWith straps) := fun _ => rfl

theorem globalInRange_resetWith : GlobalInRange (State.resetWith straps) := by
  have within : ∀ {a b c : Nat}, a.ble b = true → b.ble c = true → a ≤ b ∧ b ≤ c :=
    fun h₁ h₂ => ⟨Nat.le_of_ble_eq_true h₁, Nat.le_of_ble_eq_true h₂⟩
  exact ⟨⟨Nat.succ_pos _, straps.isLt⟩, within rfl rfl, within rfl rfl, within rfl rfl, within rfl rfl,
    within rfl rfl⟩

theorem countsBounded_resetWith : CountsBounded (State.resetWith straps) :=
  ⟨fun _ => rfl, Nat.zero_le _, Nat.zero_le _⟩

theorem portsSound_resetWith : PortsSound (State.resetWith straps) := by
  have hp : Port.Sound Port.reset := by
    unfold Port.Sound
    decide
  exact ⟨hp, hp, ⟨fun _ => rfl, fun _ => rfl⟩, ⟨fun _ => rfl, fun _ => rfl⟩⟩

end

/-- Settles O4, one invariant after the other. -/
theorem invariantsHoldAtReset : Obligations.InvariantsHoldAtReset := by
  rintro straps _ rfl
  refine ⟨rfl, queuesBounded_resetWith straps, linksSound_resetWith straps,
    ⟨slotsSound_resetWith straps, rulesSound_resetWith straps⟩,
    ⟨ringsSound_resetWith straps, rangesSound_resetWith straps, fillsSound_resetWith straps,
      readoutInRange_resetWith straps⟩,
    queueInOrder_resetWith straps,
    ⟨deliverySound_resetWith straps, initialisingAtReset_resetWith straps⟩,
    ⟨fun _ => ⟨rfl, rfl, rfl, rfl⟩, fun _ _ => rfl, ⟨fun h => absurd rfl h, fun h => absurd rfl h⟩,
      globalInRange_resetWith straps, countsBounded_resetWith straps⟩,
    ⟨List.nodup_nil, fun h => absurd rfl h⟩, rfl, portsSound_resetWith straps,
    (fits_iff _).mp (fits_resetWith straps)⟩

end Sys2Proof

/-! ## What the classifier does with a SAMPLE frame and with the F-port's loss (O23, O26, O27) -/

namespace Sys2Proof

open Sys2Proof.Machine

theorem Machine.OnlyOffered.classifier {s t : State} (h : OnlyOffered s t) :
    t.classifier = { s.classifier with channels := t.classifier.channels } :=
  congrArg State.classifier h.rest

theorem Machine.OnlyOffered.events {s t : State} (h : OnlyOffered s t) : t.events = s.events :=
  (congrArg State.events h.rest :)

theorem Machine.OnlyOffered.egress {s t : State} (h : OnlyOffered s t) : t.egress = s.egress :=
  (congrArg State.egress h.rest :)

theorem Machine.OnlyOffered.management {s t : State} (h : OnlyOffered s t) :
    t.management = s.management :=
  (congrArg State.management h.rest :)

/-! ### What the consumers of channels are given -/

/-- What reaches a consumer with a source of what the channels gave. -/
def fromChannels (given : Fin 64 → List StreamItem) : Option Source → List StreamItem
  | some (.channel c) => given c
  | _ => []

/-- Every slot, rule and ring has been given what its channel gave, behind what was in flight to it. -/
structure Given (s t : State) (given : Fin 64 → List StreamItem) : Prop where
  slots : ∀ k, t.slots.get k = { s.slots.get k with
    inbox := (s.slots.get k).inbox ++ fromChannels given (some (.channel (s.slots.get k).channel)) }
  rules : ∀ k, t.rules.get k = { s.rules.get k with
    inbox := (s.rules.get k).inbox ++ fromChannels given (s.rules.get k).source }
  rings : ∀ k, t.rings.get k = { s.rings.get k with
    inbox := (s.rings.get k).inbox ++ fromChannels given (s.rings.get k).source }

theorem fromChannels_nothing (src : Option Source) : fromChannels (fun _ => []) src = [] := by
  unfold fromChannels
  split <;> rfl

theorem fromChannels_append (g g' : Fin 64 → List StreamItem) (src : Option Source) :
    fromChannels (fun c => g c ++ g' c) src = fromChannels g src ++ fromChannels g' src := by
  unfold fromChannels
  split <;> rfl

theorem given_refl (s : State) : Given s s fun _ => [] := by
  constructor <;> intro k <;> rw [fromChannels_nothing, List.append_nil]

/-- What is given first stands before what is given next. -/
theorem Given.trans {s t u : State} {g g' : Fin 64 → List StreamItem} (h : Given s t g)
    (h' : Given t u g') : Given s u fun c => g c ++ g' c := by
  constructor <;> intro k
  · rw [h'.slots, h.slots, fromChannels_append, ← List.append_assoc]
  · have hs : (t.rules.get k).source = (s.rules.get k).source := by rw [h.rules]; rfl
    rw [h'.rules, hs, h.rules, fromChannels_append, ← List.append_assoc]
  · have hs : (t.rings.get k).source = (s.rings.get k).source := by rw [h.rings]; rfl
    rw [h'.rings, hs, h.rings, fromChannels_append, ← List.append_assoc]

theorem Given.congr {s t : State} {g g' : Fin 64 → List StreamItem} (h : Given s t g)
    (hg : ∀ c, g c = g' c) : Given s t g' :=
  (funext hg : g = g') ▸ h

theorem fromChannels_single (c : Fin 64) (item : StreamItem) (src : Option Source) :
    fromChannels (fun d => if d = c then [item] else []) src
      = if src = some (.channel c) then [item] else [] := by
  rcases src with _ | ⟨d⟩ | _ <;> simp [fromChannels]

/-- An offer gives its item to the consumers of its channel. -/
theorem given_offer (s : State) (c : Fin 64) (item : StreamItem) :
    Given s (s.offer (.channel c) item) fun d => if d = c then [item] else [] := by
  constructor <;> intro k <;> rw [fromChannels_single]
  · rw [State.slots_offer]
    simp only [Slot.names, Option.some.injEq, Source.channel.injEq, decide_eq_true_eq, eq_comm (a := c)]
    split <;> simp
  · rw [State.rules_offer]
    simp only [Rule.names, decide_eq_true_eq]
    split <;> simp
  · rw [State.rings_offer]
    simp only [Ring.names, decide_eq_true_eq]
    split <;> simp

/-- What has passed by and what is given are what the channels leave in flight. -/
theorem afterChannels_eq (enabled : Bool) (src : Option Source) (inbox : List StreamItem)
    (given : Fin 64 → List StreamItem) :
    afterChannels enabled src inbox given
      = (if enabled = false ∧ src.any Source.isChannel = true then [] else inbox)
        ++ fromChannels given src := by
  rcases src with _ | ⟨c⟩ | ⟨j⟩ <;> cases enabled <;> simp [afterChannels, fromChannels, Source.isChannel]

/-- In a frame that is processed, and at the F-port's loss, what the channels offered before has first
passed by the consumers that are not enabled (R25; assumption 9). -/
theorem Given.channelsGave {s t : State} {g : Fin 64 → List StreamItem}
    (h : Given (s.passBy Source.isChannel) t g) : ChannelsGave s t g := by
  refine ⟨fun k => ?_, fun k => ?_, fun k => ?_⟩
  · rw [h.slots, State.slots_passBy, afterChannels_eq]; rfl
  · rw [h.rules, State.rules_passBy, afterChannels_eq]; rfl
  · rw [h.rings, State.rings_passBy, afterChannels_eq]; rfl

/-! ### Gap marks -/

/-- The channel with one gap mark more, counted up to 65,535 (R22). -/
def Machine.Channel.marked (c : Channel) : Channel := { c with gapMarks := bumpGapMarks c.gapMarks }

/-- Whether a channel is given a gap mark by a placement in the enabled channels that pass a test. -/
def Machine.State.marks (s : State) (p : Channel → Bool) (c : Fin 64) : Bool :=
  (s.channel c).enabled && p (s.channel c)

/-- One channel of a placement: a gap mark, if it passes the test. -/
def Machine.State.markStep (p : Channel → Bool) (s : State) (c : Fin 64) : State :=
  if s.marks p c then s.placeMark c else s

theorem channel_markStep (p : Channel → Bool) (s : State) (c d : Fin 64) :
    (s.markStep p c).channel d
      = if d = c ∧ s.marks p c = true then (s.channel d).marked else s.channel d := by
  simp only [State.markStep]
  split
  · next hm =>
    rw [show (s.placeMark c).channel d = if c = d then (s.channel c).marked else s.channel d from
      State.channel_setChannel s c d _]
    by_cases hd : d = c
    · subst hd; simp [hm]
    · simp [hd, Ne.symm hd]
  · next hm => simp [hm]

theorem given_markStep (p : Channel → Bool) (s : State) (c : Fin 64) :
    Given s (s.markStep p c) fun d => if d = c ∧ s.marks p c = true then [.mark] else [] := by
  simp only [State.markStep]
  split
  · next hm =>
    have h := given_offer (s.setChannel c (s.channel c).marked) c .mark
    simp only [hm, and_true]
    exact ⟨h.slots, h.rules, h.rings⟩
  · next hm => simpa [hm] using given_refl s

/-- Marks placed in a list of channels: those of the list that pass the test are counted and given. -/
structure MarksPlaced (p : Channel → Bool) (cs : List (Fin 64)) (s t : State) : Prop where
  channels : ∀ c, t.channel c
    = if c ∈ cs ∧ s.marks p c = true then (s.channel c).marked else s.channel c
  given : Given s t fun c => if c ∈ cs ∧ s.marks p c = true then [.mark] else []

/-- Each channel stands in the list once, so it is tested as it stands at first. -/
theorem marksPlaced_foldl (p : Channel → Bool) {cs : List (Fin 64)} (hcs : cs.Nodup) (s : State) :
    MarksPlaced p cs s (cs.foldl (State.markStep p) s) := by
  induction cs generalizing s with
  | nil => exact ⟨fun c => by simp, by simpa using given_refl s⟩
  | cons d cs ih =>
    obtain ⟨hd, hcs⟩ := List.nodup_cons.mp hcs
    have h := ih hcs (s.markStep p d)
    have other : ∀ c, c ≠ d → (s.markStep p d).channel c = s.channel c := fun c hc => by
      simp [channel_markStep, hc]
    have marks : ∀ c, c ≠ d → (s.markStep p d).marks p c = s.marks p c := fun c hc => by
      simp only [State.marks, other c hc]
    refine ⟨fun c => ?_, ?_⟩
    · rw [List.foldl_cons, h.channels]
      by_cases hc : c = d
      · subst hc; simp [hd, channel_markStep]
      · simp [hc, other c hc, marks c hc]
    · refine ((given_markStep p s d).trans h.given).congr fun c => ?_
      by_cases hc : c = d
      · subst hc; simp [hd]
      · simp [hc, marks c hc]

theorem marksPlaced_placeMarks (s : State) (p : Channel → Bool) :
    MarksPlaced p (List.finRange 64) s (s.placeMarks p) :=
  marksPlaced_foldl p (List.nodup_finRange 64) s

/-- A placement in all enabled channels that pass a test counts one mark in each of them (R7, R21). -/
theorem channel_placeMarks (s : State) (p : Channel → Bool) (c : Fin 64) :
    (s.placeMarks p).channel c = { s.channel c with
      gapMarks := if s.marks p c = true then min ((s.channel c).gapMarks + 1) 65535
        else (s.channel c).gapMarks } := by
  rw [(marksPlaced_placeMarks s p).channels]
  by_cases h : s.marks p c = true <;> simp [h, Channel.marked, bumpGapMarks]

/-- Such a placement gives each of those channels' consumers one mark (R20). -/
theorem given_placeMarks (s : State) (p : Channel → Bool) :
    Given s (s.placeMarks p) fun c => if s.marks p c = true then [.mark] else [] := by
  simpa using (marksPlaced_placeMarks s p).given

/-! ### The F-port leaving UP -/

/-- Settles O27: the marks are placed in every enabled channel, and forgetting the nodes leaves channels
and consumers as they are. -/
theorem fieldLossMarksEveryChannel : Obligations.FieldLossMarksEveryChannel := by
  intro s items hi
  have hexec : exec .fPortLeavingUpClassifier s = .next (State.unseeNodes
      (((s.setInbox items).passBy Source.isChannel).placeMarks fun _ => true)) := by
    simp only [exec, execFPortLeavingUpClassifier, hi]
  have ho := State.placeMarks_onlyOffered ((s.setInbox items).passBy Source.isChannel) fun _ => true
  have hc := channel_placeMarks ((s.setInbox items).passBy Source.isChannel) fun _ => true
  have hg := given_placeMarks ((s.setInbox items).passBy Source.isChannel) fun _ => true
  have hmarks : ∀ c, State.marks ((s.setInbox items).passBy Source.isChannel) (fun _ => true) c
      = (s.channel c).enabled := fun c => Bool.and_true _
  simp only [hmarks] at hc hg
  revert hexec ho hc hg
  generalize State.placeMarks _ _ = v
  intro hexec ho hc hg
  have hclass : v.classifier
      = { s.classifier with inbox := items, channels := v.classifier.channels } := ho.classifier
  have hnodes : v.classifier.nodes = s.classifier.nodes := by rw [hclass]
  refine ⟨_, hexec, fun n => ?_, hc, Given.channelsGave { hg with }, ?_, ?_, ?_⟩
  · rw [← hnodes]
    exact Table.get_map _ _ _
  · exact congrArg Classifier.inbox hclass
  · exact (congrArg Classifier.staleFrames hclass :)
  · rw [State.unseeNodes, ho.rest]
    rfl

end Sys2Proof

/-! ### A SAMPLE frame: its check, its node and its kept entries (O23, O26) -/

namespace Sys2Proof

open Sys2Proof.Machine

/-! #### The check and the sequence (R1, R6) -/

theorem readSampleFrame_eq_none {bytes : List Byte}
    (h : ¬ (1 ≤ byteAt (framePayload bytes) 2 ∧ byteAt (framePayload bytes) 2 ≤ 32
      ∧ (framePayload bytes).length = 3 + 4 * byteAt (framePayload bytes) 2)) :
    readSampleFrame bytes = none :=
  if_neg h

theorem nodeIndex_eq_none {m : Nat} (h : ¬ (1 ≤ m ∧ m ≤ 30)) : nodeIndex m = none := by
  simp only [nodeIndex, indexBelow]
  split
  · rfl
  · exact dif_neg (by omega)

theorem seqDistance_eq (e : NodeEntry) (q : Nat) :
    (seqDistance q e.expected : Int) = frameDistance e q := by
  simp only [seqDistance, wrap16, frameDistance, Config.serialModulus]
  omega

theorem distance_of_tracking {e : NodeEntry} (h : e.state = .tracking) (q : Nat) :
    e.distance q = some (seqDistance q e.expected) := by
  simp only [NodeEntry.distance, h]

theorem distance_of_unseen {e : NodeEntry} (h : e.state = .unseen) (q : Nat) : e.distance q = none := by
  simp only [NodeEntry.distance, h]

theorem isStale_iff (e : NodeEntry) (q : Nat) : e.isStale q = true ↔ IsStaleFrame e q := by
  have hd := seqDistance_eq e q
  cases h : e.state
  case unseen => simp [NodeEntry.isStale, distance_of_unseen h, IsStaleFrame, h]
  case tracking =>
    simp only [NodeEntry.isStale, distance_of_tracking h, IsStaleFrame, h, decide_eq_true_eq, true_and]
    omega

/-- The gap of a frame that is not stale is its distance, in TRACKING (R6). -/
theorem gapSize_eq {e : NodeEntry} {q : Nat} (hs : ¬ IsStaleFrame e q) :
    (e.gapSize q : Int) = if e.state = .tracking then frameDistance e q else 0 := by
  have hd := seqDistance_eq e q
  cases h : e.state
  case unseen => simp [NodeEntry.gapSize, distance_of_unseen h]
  case tracking =>
    have hlt : seqDistance q e.expected < 32768 := by
      have : ¬ 32768 ≤ frameDistance e q := fun hle => hs ⟨h, hle⟩
      omega
    simp [NodeEntry.gapSize, distance_of_tracking h, hlt, hd]

theorem gapSize_eq_zero_iff {e : NodeEntry} {q : Nat} (hs : ¬ IsStaleFrame e q) :
    e.gapSize q = 0 ↔ ¬ RevealsGap e q := by
  have hg := gapSize_eq hs
  simp only [RevealsGap]
  split at hg
  · next ht => simp only [ht, true_and]; omega
  · next ht => simpa [ht] using hg

theorem gapSize_of_revealsGap {e : NodeEntry} {q : Nat} (hs : ¬ IsStaleFrame e q)
    (hg : RevealsGap e q) : (e.gapSize q : Int) = frameDistance e q := by
  rw [gapSize_eq hs, if_pos hg.1]

/-! #### Node tracking (R6, R7) -/

/-- The state in which a frame's node is tracked and a gap of it requested, before any mark is placed. -/
def Machine.State.tracked (s : State) (n : Fin 30) (q : Nat) : State :=
  { s.setNode n ((s.classifier.nodes.get n).afterFrame q) with
    events := { s.events with requests := s.events.requests
      ++ if (s.classifier.nodes.get n).gapSize q = 0 then []
        else [gapRequest (n.val + 1) ((s.classifier.nodes.get n).gapSize q) s.timebase] } }

theorem trackNode_onlyOffered (s : State) (n : Fin 30) (q : Nat) :
    OnlyOffered (s.tracked n q) (s.trackNode n q) := by
  by_cases h : (s.classifier.nodes.get n).gapSize q = 0
  · have ht : s.trackNode n q = s.tracked n q := by
      simp [State.trackNode, State.tracked, h]
      rfl
    exact ht ▸ OnlyOffered.refl _
  · have ht : s.trackNode n q = (s.tracked n q).placeMarks fun c => decide (c.node = n.val + 1) := by
      simp only [State.trackNode, State.tracked, h, if_false]
      rfl
    exact ht ▸ State.placeMarks_onlyOffered _ _

/-- Marks and passing by leave every sample index (R15, R22). -/
theorem sampleIndex_trackNode (s : State) (n : Fin 30) (q : Nat) (c : Fin 64) :
    ((s.trackNode n q).channel c).sampleIndex = (s.channel c).sampleIndex := by
  simp only [State.trackNode]
  split
  · rfl
  · rw [channel_placeMarks]; rfl

/-! #### The entries (R14 to R19) -/

/-- What classification reads of a state: the keys and policies of the channels, and the unknown-channel
policy. -/
theorem entriesKept_congr {s t : State} (hc : ∀ c, t.channel c = s.channel c)
    (hm : t.management = s.management) (node : Nat) (before es : List SampleEntry) :
    entriesKept t node before es = entriesKept s node before es := by
  have hmatch : t.matchChannel node = s.matchChannel node := by
    funext input
    simp only [State.matchChannel, hc]
  have hkept : ∀ b e, entryKept t node b e = entryKept s node b e := by
    intro b e
    simp only [entryKept, hmatch]
    cases s.matchChannel node e.input with
    | none => rw [hm]
    | some c =>
      have htaken : takenBy t node c b = takenBy s node c b := by simp only [takenBy, hmatch]
      simp only [hc, htaken]
  induction es generalizing before with
  | nil => rfl
  | cons e es ih => simp only [entriesKept, hkept, ih]

/-- The state after some entries of a frame: nothing else is offered, and each channel has numbered the
entries that it took (R14, R15). -/
structure EntriesTaken (s u : State) (node : Nat) (before : List SampleEntry) : Prop where
  only : OnlyOffered s u
  index : ∀ c, (u.channel c).sampleIndex
    = ((s.channel c).sampleIndex + (takenBy s node c before).length) % 4294967296

theorem takenBy_concat (s : State) (node : Nat) (c : Fin 64) (before : List SampleEntry)
    (e : SampleEntry) :
    (takenBy s node c (before ++ [e])).length
      = (takenBy s node c before).length + if s.matchChannel node e.input = some c then 1 else 0 := by
  simp only [takenBy, List.filter_append, List.length_append, List.filter_singleton]
  split <;> simp_all

theorem EntriesTaken.takeEntry {s u : State} {node : Nat} {before : List SampleEntry}
    (h : EntriesTaken s u node before) (e : SampleEntry) :
    EntriesTaken s (u.takeEntry node e).1 node (before ++ [e])
      ∧ (u.takeEntry node e).2 = entryKept s node before e := by
  have hmatch := h.only.matchChannel node e.input
  have hc := h.only.channels
  cases hm : s.matchChannel node e.input with
  | none =>
    rw [hm] at hmatch
    simp only [State.takeEntry, hmatch, entryKept, hm, h.only.management]
    exact ⟨⟨h.only, fun c => by rw [takenBy_concat, hm]; simpa using h.index c⟩, trivial⟩
  | some d =>
    rw [hm] at hmatch
    simp only [State.takeEntry, hmatch, entryKept, hm]
    refine ⟨⟨h.only.trans (State.takeSample_onlyOffered u d e.code), fun c => ?_⟩, ?_⟩
    · have hs : (u.takeSample d e.code).channel c = _ := State.channel_setChannel u d c _
      rw [hs, takenBy_concat, hm]
      have hi := h.index c
      split
      · next hd =>
        subst hd
        simp only [wrap32, Config.indexModulus, if_true]
        omega
      · next hd =>
        have : ¬ (some d = some c) := fun he => hd (Option.some.inj he)
        simp only [this, if_false]
        omega
    · rw [hc d, h.index d]
      cases (s.channel d).policy <;> rfl

/-- Entry by entry, what the classifier keeps is what R17 and R18 keep (R19). -/
theorem EntriesTaken.takeEntries_kept {s u : State} {node : Nat} {before : List SampleEntry}
    (h : EntriesTaken s u node before) (es : List SampleEntry) :
    (u.takeEntries node es).2 = entriesKept s node before es := by
  induction es generalizing u before with
  | nil => rfl
  | cons e es ih =>
    obtain ⟨ht, hk⟩ := h.takeEntry e
    simp only [State.takeEntries, entriesKept, hk, ih ht]

/-! #### A frame that is processed -/

/-- The state after the entries of a frame that is processed, and those of them that are kept. -/
def Machine.State.processed (s : State) (n : Fin 30) (f : SampleFrame) : State × List SampleEntry :=
  ((s.passBy Source.isChannel).trackNode n f.seq).takeEntries (n.val + 1) f.entries

theorem processed_onlyOffered (s : State) (n : Fin 30) (f : SampleFrame) :
    OnlyOffered (s.tracked n f.seq) (s.processed n f).1 :=
  ((State.passBy_onlyOffered (s.tracked n f.seq) Source.isChannel).trans
    (trackNode_onlyOffered (s.passBy Source.isChannel) n f.seq)).trans
    (State.takeEntries_onlyOffered _ _ _)

theorem processed_kept (s : State) (n : Fin 30) (f : SampleFrame)
    (hi : ∀ c, (s.channel c).sampleIndex < 4294967296) :
    (s.processed n f).2 = entriesKept s (n.val + 1) [] f.entries := by
  have h : EntriesTaken (s.tracked n f.seq) ((s.passBy Source.isChannel).trackNode n f.seq)
      (n.val + 1) [] := by
    refine ⟨(State.passBy_onlyOffered (s.tracked n f.seq) Source.isChannel).trans
      (trackNode_onlyOffered (s.passBy Source.isChannel) n f.seq), fun c => ?_⟩
    rw [sampleIndex_trackNode]
    exact (Nat.mod_eq_of_lt (hi c)).symm
  exact (h.takeEntries_kept f.entries).trans
    (entriesKept_congr (s := s) (t := s.tracked n f.seq) (fun _ => rfl) rfl _ _ _)

section
variable {s : State} {bytes : List Byte} {items : List ClassifierItem} {f : SampleFrame} {n : Fin 30}
  (hi : s.classifier.inbox = .frame bytes :: items) (hp : PassesCheck s bytes f n)
include hi

theorem exec_sampleFrameTaken :
    exec .sampleFrameTaken s = .next ((s.setInbox items).takeSampleFrame bytes) := by
  simp only [exec, execSampleFrameTaken, hi]

include hp

/-- The whole of a stale frame: two counts (R8). -/
theorem exec_sampleFrameTaken_stale (hs : IsStaleFrame (s.classifier.nodes.get n) f.seq) :
    exec .sampleFrameTaken s = .next ((s.setInbox items).dropStale n) := by
  obtain ⟨hf, hn, hown⟩ := hp
  have hown : ¬ frameSource bytes = (s.setInbox items).ownNode := hown
  have hstale : ((s.setInbox items).classifier.nodes.get n).isStale f.seq = true := (isStale_iff _ _).mpr hs
  rw [exec_sampleFrameTaken hi]
  simp only [State.takeSampleFrame, hf, hn, hown, hstale, if_true, if_false]

/-- The whole of a frame that is processed (R13). -/
theorem exec_sampleFrameTaken_processed (hs : ¬ IsStaleFrame (s.classifier.nodes.get n) f.seq) :
    exec .sampleFrameTaken s = .next (((s.setInbox items).processed n f).1.handCandidate f
      ((s.setInbox items).processed n f).2) := by
  obtain ⟨hf, hn, hown⟩ := hp
  have hown : ¬ frameSource bytes = (s.setInbox items).ownNode := hown
  have hstale : ¬ ((s.setInbox items).classifier.nodes.get n).isStale f.seq = true :=
    fun h => hs ((isStale_iff _ _).mp h)
  rw [exec_sampleFrameTaken hi]
  simp only [State.takeSampleFrame, hf, hn, hown, hstale, if_false]
  rfl

end

theorem candidates_handCandidate (s : State) (f : SampleFrame) (kept : List SampleEntry) :
    (s.handCandidate f kept).egress.candidates
      = s.egress.candidates ++ if kept = [] then [] else [{ f with entries := kept }] := by
  simp only [State.handCandidate]
  split <;> simp

/-- Settles O26: what the classifier keeps entry by entry is what the statement's policies keep, and it is
handed on behind the candidates before it. -/
theorem keptEntriesMakeTheForwardCandidate : Obligations.KeptEntriesMakeTheForwardCandidate := by
  intro s bytes items f n hi hp hs hidx
  refine ⟨_, exec_sampleFrameTaken_processed hi hp hs, ?_⟩
  rw [candidates_handCandidate, processed_kept (s.setInbox items) n f hidx, (processed_onlyOffered _ n f).egress]
  rw [entriesKept_congr (s := s) (t := s.setInbox items) (fun _ => rfl) rfl]
  rfl

/-- What the hand-over of a candidate reaches (R19). -/
theorem handCandidate_eq (s : State) (f : SampleFrame) (kept : List SampleEntry) :
    s.handCandidate f kept = { s with egress := { s.egress with
      candidates := (s.handCandidate f kept).egress.candidates } } := by
  simp only [State.handCandidate]
  split <;> rfl

/-- A frame that fails the check of R1 is only counted. -/
theorem takeSampleFrame_unusable {s : State} {bytes : List Byte}
    (h : ¬ (1 ≤ frameSource bytes ∧ frameSource bytes ≤ 30 ∧ frameSource bytes ≠ s.ownNode
      ∧ 1 ≤ byteAt (framePayload bytes) 2 ∧ byteAt (framePayload bytes) 2 ≤ 32
      ∧ (framePayload bytes).length = 3 + 4 * byteAt (framePayload bytes) 2)) :
    s.takeSampleFrame bytes = s.chargeMalformed .f := by
  by_cases hcount : 1 ≤ byteAt (framePayload bytes) 2 ∧ byteAt (framePayload bytes) 2 ≤ 32
      ∧ (framePayload bytes).length = 3 + 4 * byteAt (framePayload bytes) 2
  · by_cases hnode : 1 ≤ frameSource bytes ∧ frameSource bytes ≤ 30
    · have hown : frameSource bytes = s.ownNode :=
        Decidable.not_not.mp fun hne => h ⟨hnode.1, hnode.2, hne, hcount⟩
      simp only [State.takeSampleFrame, if_pos hown]
      split <;> rfl
    · simp only [State.takeSampleFrame, nodeIndex_eq_none hnode]
      split
      · next hn => cases hn
      · rfl
  · simp only [State.takeSampleFrame, readSampleFrame_eq_none hcount]

/-- What remains of the node's tracking and of its GAP request after a frame that is processed. -/
structure NodeTracked (s : State) (n : Fin 30) (q : Nat) (u : State) : Prop where
  nodes : u.classifier.nodes = s.classifier.nodes.set n ((s.classifier.nodes.get n).afterFrame q)
  requests : u.events.requests = s.events.requests
    ++ if (s.classifier.nodes.get n).gapSize q = 0 then []
      else [gapRequest (n.val + 1) ((s.classifier.nodes.get n).gapSize q) s.timebase]
  inbox : u.classifier.inbox = s.classifier.inbox
  staleFrames : u.classifier.staleFrames = s.classifier.staleFrames
  rest : u = { s with
    classifier := u.classifier
    slots := u.slots
    rules := u.rules
    rings := u.rings
    events := { s.events with requests := u.events.requests }
    egress := { s.egress with candidates := u.egress.candidates } }

theorem nodeTracked_of_onlyOffered {s u : State} {n : Fin 30} {q : Nat}
    (h : OnlyOffered (s.tracked n q) u) : NodeTracked s n q u where
  nodes := (congrArg Classifier.nodes h.classifier :)
  requests := (congrArg EventUnit.requests h.events :)
  inbox := (congrArg Classifier.inbox h.classifier :)
  staleFrames := (congrArg Classifier.staleFrames h.classifier :)
  rest := by rw [h.rest]; rfl

theorem NodeTracked.handCandidate {s u : State} {n : Fin 30} {q : Nat} (h : NodeTracked s n q u)
    (f : SampleFrame) (kept : List SampleEntry) : NodeTracked s n q (u.handCandidate f kept) := by
  rw [handCandidate_eq]
  exact { h with rest := by rw [h.rest] }

/-- Settles O23: the check of R1 and the sequence of R6 give the three cases, and what a processed frame
does after its node is tracked reaches only channels, consumers and the forward candidates. -/
theorem nodeTrackingFollowsTheSequence : Obligations.NodeTrackingFollowsTheSequence := by
  refine ⟨⟨?_, ?_⟩, ?_⟩
  · rintro s bytes payload items hi rfl hbad
    rw [exec_sampleFrameTaken hi, takeSampleFrame_unusable (s := s.setInbox items) hbad]
    rfl
  · intro s bytes items f n hi hp hs
    exact exec_sampleFrameTaken_stale hi hp hs
  · rintro s bytes items f n e hi hp rfl hs
    have ht := (nodeTracked_of_onlyOffered (processed_onlyOffered (s.setInbox items) n f)).handCandidate f
      ((s.setInbox items).processed n f).2
    refine ⟨_, exec_sampleFrameTaken_processed hi hp hs, ?_⟩
    generalize State.handCandidate _ _ _ = t at ht ⊢
    have hnode : t.classifier.nodes.get n = (s.classifier.nodes.get n).afterFrame f.seq := by
      rw [ht.nodes]; exact Table.get_set_self _ _ _
    have hreq : t.events.requests = s.events.requests
        ++ if (s.classifier.nodes.get n).gapSize f.seq = 0 then []
          else [gapRequest (n.val + 1) ((s.classifier.nodes.get n).gapSize f.seq) s.timebase] := ht.requests
    have hzero := gapSize_eq_zero_iff hs
    rw [hnode]
    refine ⟨rfl, rfl, rfl, rfl, fun hg => ?_, fun hg => ?_, fun m hm => ?_, ht.inbox, ht.staleFrames,
      ht.rest⟩
    · simp only [hreq, NodeEntry.afterFrame, if_pos (hzero.mpr hg), List.append_nil, and_self]
    · have hsize := gapSize_of_revealsGap hs hg
      have hne : ¬ (s.classifier.nodes.get n).gapSize f.seq = 0 := fun h0 => hzero.mp h0 hg
      simp only [hreq, NodeEntry.afterFrame, if_neg hne, ← hsize]
      refine ⟨rfl, ?_, rfl⟩
      simp only [sat32, Config.maxCount]
      omega
    · rw [ht.nodes]; exact Table.get_set_ne _ _ (Ne.symm hm)

end Sys2Proof

/-! ## ENABLE and DISABLE (O53, O54) -/

namespace Sys2Proof

open Sys2Proof.Machine

/-! ### The entry that a table code and an index name (R136) -/

theorem tableOf_eq_none {n : Nat} (h : n = 0 ∨ 7 ≤ n) : tableOf n = none := by
  have : n ≠ 1 ∧ n ≠ 2 ∧ n ≠ 3 ∧ n ≠ 4 ∧ n ≠ 5 ∧ n ≠ 6 := by omega
  simp [tableOf, this]

theorem indexBelow_of_val {n m : Nat} {k : Fin n} (h : m = k.val) : indexBelow n m = some k := by
  subst h
  exact dif_pos k.isLt

theorem indexBelow_eq_none {n m : Nat} (h : n ≤ m) : indexBelow n m = none := dif_neg (by omega)

section
variable {s : State} {q : Request} {table index : Byte}

/-- What ENABLE answers is what its table's operation gives. -/
theorem exec_enable (h : Executes s q 0x04) (ha : q.args = [table, index]) {x : TableId}
    (hx : tableOf table.toNat = some x) {status : Status} {t : State}
    (ht : s.enableEntry x index.toNat = (status, t)) :
    exec .enable s = .next (answered t q status []) := by
  show execEnable s = _
  refine h.request_answers _ (ha ▸ rfl) ?_
  have hx : tableOf (byteAt [table, index] 0) = some x := hx
  have ht : s.enableEntry x (byteAt [table, index] 1) = (status, t) := ht
  simp only [ha, hx, ht, bare]

theorem exec_enable_badTable (h : Executes s q 0x04) (ha : q.args = [table, index])
    (hx : tableOf table.toNat = none) : exec .enable s = .next (answered s q .badValue []) := by
  show execEnable s = _
  refine h.request_answers _ (ha ▸ rfl) ?_
  have hx : tableOf (byteAt [table, index] 0) = none := hx
  simp only [ha, hx]

theorem exec_disable (h : Executes s q 0x05) (ha : q.args = [table, index]) {x : TableId}
    (hx : tableOf table.toNat = some x) {status : Status} {t : State}
    (ht : s.disableEntry x index.toNat = (status, t)) :
    exec .disable s = .next (answered t q status []) := by
  show execDisable s = _
  refine h.request_answers _ (ha ▸ rfl) ?_
  have hx : tableOf (byteAt [table, index] 0) = some x := hx
  have ht : s.disableEntry x (byteAt [table, index] 1) = (status, t) := ht
  simp only [ha, hx, ht, bare]

theorem exec_disable_badTable (h : Executes s q 0x05) (ha : q.args = [table, index])
    (hx : tableOf table.toNat = none) : exec .disable s = .next (answered s q .badValue []) := by
  show execDisable s = _
  refine h.request_answers _ (ha ▸ rfl) ?_
  have hx : tableOf (byteAt [table, index] 0) = none := hx
  simp only [ha, hx]

end

/-! The entry that an index names, in each table. -/

section
variable (s : State) {i : Nat}

theorem Machine.State.enableEntry_channel {c : Fin 64} (h : i = c.val) :
    s.enableEntry .channel i = s.enableChannel c := by
  simp only [State.enableEntry, indexBelow_of_val h, atIndex]

theorem Machine.State.enableEntry_slot {k : Fin 16} (h : i = k.val) :
    s.enableEntry .slot i = s.enableSlot k := by
  simp only [State.enableEntry, indexBelow_of_val h, atIndex]

theorem Machine.State.enableEntry_rule {k : Fin 32} (h : i = k.val) :
    s.enableEntry .rule i = s.enableRule k := by
  simp only [State.enableEntry, indexBelow_of_val h, atIndex]

theorem Machine.State.enableEntry_ring {k : Fin 8} (h : i = k.val) :
    s.enableEntry .ring i = s.enableRing k := by
  simp only [State.enableEntry, indexBelow_of_val h, atIndex]

theorem Machine.State.disableEntry_channel {c : Fin 64} (h : i = c.val) :
    s.disableEntry .channel i = s.disableChannel c := by
  simp only [State.disableEntry, indexBelow_of_val h, atIndex]

theorem Machine.State.disableEntry_slot {k : Fin 16} (h : i = k.val) :
    s.disableEntry .slot i = s.disableSlot k := by
  simp only [State.disableEntry, indexBelow_of_val h, atIndex]

theorem Machine.State.disableEntry_rule {k : Fin 32} (h : i = k.val) :
    s.disableEntry .rule i = s.disableRule k := by
  simp only [State.disableEntry, indexBelow_of_val h, atIndex]

theorem Machine.State.disableEntry_ring {k : Fin 8} (h : i = k.val) :
    s.disableEntry .ring i = s.disableRing k := by
  simp only [State.disableEntry, indexBelow_of_val h, atIndex]

end

/-! ### ENABLE, table by table -/

section
variable (s : State)

/-- The checks of R10 and R11, in their order. -/
theorem enableChannel_checks (c : Fin 64) {x : Channel} (hx : x = s.channel c) :
    (x.enabled = true → s.enableChannel c = (.state, s))
    ∧ (x.enabled = false → (x.node = 0 ∨ x.node = s.ownNode) → s.enableChannel c = (.badValue, s))
    ∧ (x.enabled = false → x.node ≠ 0 → x.node ≠ s.ownNode →
      (s.keyTaken c = true → s.enableChannel c = (.duplicateKey, s))
      ∧ (s.keyTaken c = false → s.enableChannel c
        = (.ok, (s.passBy fun src => decide (src = .channel c)).setChannel c x.enabledFresh))) := by
  subst hx
  refine ⟨fun he => ?_, fun he hn => ?_, fun he h0 hown => ⟨fun hk => ?_, fun hk => ?_⟩⟩
  · simp [State.enableChannel, he]
  · simp [State.enableChannel, he, hn]
  · simp [State.enableChannel, he, h0, hown, hk]
  · simp [State.enableChannel, he, h0, hown, hk]

/-- The checks of R24 and R25, in their order. -/
theorem enableSlot_checks (k : Fin 16) {x : Slot} (hx : x = s.slots.get k) :
    (x.enabled = true → s.enableSlot k = (.state, s))
    ∧ (x.enabled = false → x.mode = .enhance → x.exponent % 2 = 1 → s.enableSlot k = (.badValue, s))
    ∧ (x.enabled = false → (x.mode ≠ .enhance ∨ x.exponent % 2 = 0) →
      ((s.channel x.channel).enabled = false → s.enableSlot k = (.dependent, s))
      ∧ ((s.channel x.channel).enabled = true → s.enableSlot k
        = (.ok, (s.passBy fun src => decide (src = .slot k)).setSlot k x.enabledFresh))) := by
  subst hx
  refine ⟨fun he => ?_, fun he hm hn => ?_, fun he hm => ?_⟩
  · simp [State.enableSlot, he]
  · simp [State.enableSlot, he, hm, hn]
  · have hgood : ¬ ((s.slots.get k).mode = .enhance ∧ (s.slots.get k).exponent % 2 = 1) := by
      rintro ⟨h₁, h₂⟩
      rcases hm with hm | hm
      · exact hm h₁
      · omega
    exact ⟨fun hc => by simp [State.enableSlot, he, hgood, hc],
      fun hc => by simp [State.enableSlot, he, hgood, hc]⟩

/-- The checks of R43 and R44, in their order. -/
theorem enableRule_checks (k : Fin 32) {r : Rule} (hr : r = s.rules.get k) :
    (r.enabled = true → s.enableRule k = (.state, s))
    ∧ (r.enabled = false → (r.sourceKind = .slot ∧ 16 ≤ r.sourceIndex.val ∨ ¬ ConsistentRule r) →
      s.enableRule k = (.badValue, s))
    ∧ (r.enabled = false → (r.sourceKind = .slot → r.sourceIndex.val < 16) → ConsistentRule r →
      (¬ SourceOn s r.sourceKind r.sourceIndex ∨ ¬ FreezeRingOn s r ∨ ¬ StartSlotOn s r →
        s.enableRule k = (.dependent, s))
      ∧ (SourceOn s r.sourceKind r.sourceIndex → FreezeRingOn s r → StartSlotOn s r →
        s.enableRule k = (.ok, s.setRule k r.enabledFresh))) := by
  subst hr
  refine ⟨fun he => ?_, fun he hbad => ?_, fun he hslot hc => ⟨fun hbad => ?_, fun hs hf ht => ?_⟩⟩
  · simp [State.enableRule, he]
  · rcases hbad with hbad | hbad
    · have hs : (s.rules.get k).source = none := namedSource_eq_none.mpr hbad
      simp [State.enableRule, he, hs]
    · have hc : (s.rules.get k).consistent = false :=
        Bool.eq_false_iff.mpr fun ht => hbad ((Rule.consistent_iff _).mp ht)
      simp [State.enableRule, he, hc]
  all_goals
    have hnamed : ¬ (s.rules.get k).source = none := fun hn => by
      obtain ⟨hkind, hle⟩ := namedSource_eq_none.mp hn
      exact absurd (hslot hkind) (by omega)
    have hc := (Rule.consistent_iff _).mpr hc
  · have hone : s.sourceEnabled (s.rules.get k).source = false
        ∨ s.freezeTargetGood (s.rules.get k).freezeRing = false
        ∨ s.startTargetGood (s.rules.get k).startSlot = false := by
      rw [← s.sourceEnabled_iff, ← s.freezeTargetGood_iff, ← s.startTargetGood_iff] at hbad
      simpa [Rule.source] using hbad
    simp only [State.enableRule, he, hnamed, hc]
    rcases hone with h | h | h <;> simp [h]
  · have hs : s.sourceEnabled (s.rules.get k).source = true := (s.sourceEnabled_iff _ _).mpr hs
    have hf := (s.freezeTargetGood_iff _).mpr hf
    have ht := (s.startTargetGood_iff _).mpr ht
    simp [State.enableRule, he, hnamed, hc, hs, hf, ht]

/-- The checks of R68 and R69, in their order. -/
theorem enableRing_checks (k : Fin 8) {r : Ring} (hr : r = s.rings.get k) :
    (r.enabled = true → s.enableRing k = (.state, s))
    ∧ (r.enabled = false → (r.length = 0 ∨ r.sourceKind = .slot ∧ 16 ≤ r.sourceIndex.val) →
      s.enableRing k = (.badValue, s))
    ∧ (r.enabled = false → r.length ≠ 0 → (r.sourceKind = .slot → r.sourceIndex.val < 16) →
      (s.rangeTaken k = true → s.enableRing k = (.overlap, s))
      ∧ (s.rangeTaken k = false → ¬ SourceOn s r.sourceKind r.sourceIndex →
        s.enableRing k = (.dependent, s))
      ∧ (s.rangeTaken k = false → SourceOn s r.sourceKind r.sourceIndex →
        s.enableRing k = (.ok, s.setRing k r.enabledFresh))) := by
  subst hr
  refine ⟨fun he => ?_, fun he hbad => ?_, fun he hl hslot => ?_⟩
  · simp [State.enableRing, he]
  · rcases hbad with hbad | hbad
    · simp [State.enableRing, he, hbad]
    · have hs : (s.rings.get k).source = none := namedSource_eq_none.mpr hbad
      simp [State.enableRing, he, hs]
  · have hnamed : ¬ (s.rings.get k).source = none := fun hn => by
      obtain ⟨hkind, hle⟩ := namedSource_eq_none.mp hn
      exact absurd (hslot hkind) (by omega)
    refine ⟨fun ht => ?_, fun ht hs => ?_, fun ht hs => ?_⟩
    · simp [State.enableRing, he, hl, hnamed, ht]
    · have hs : s.sourceEnabled (s.rings.get k).source = false := Bool.eq_false_iff.mpr
        fun ht => hs ((s.sourceEnabled_iff _ _).mp ht)
      simp [State.enableRing, he, hl, hnamed, ht, hs]
    · have hs : s.sourceEnabled (s.rings.get k).source = true := (s.sourceEnabled_iff _ _).mpr hs
      simp [State.enableRing, he, hl, hnamed, ht, hs]

end

/-- Ranges that are not empty share a word exactly when neither lies behind the other (R69). -/
theorem overlaps_iff {r q : Ring} (hr : r.length ≠ 0) (hq : q.length ≠ 0) :
    r.overlaps q = true ↔ ∃ o, r.base ≤ o ∧ o < r.base + r.length
      ∧ q.base ≤ o ∧ o < q.base + q.length := by
  simp only [Ring.overlaps, Bool.and_eq_true, decide_eq_true_eq]
  constructor
  · rintro ⟨h₁, h₂⟩
    exact ⟨max r.base q.base, by omega, by omega, by omega, by omega⟩
  · rintro ⟨o, h₁, h₂, h₃, h₄⟩
    exact ⟨by omega, by omega⟩

theorem slotEnabledFresh_eq (x : Slot) : x.enabledFresh = { x with
    enabled := true
    state := if x.trigger = .continuous then .accum else .idle
    count := 0
    outputIndex := 0
    brokenWindows := 0
    window := none
    afterGap := false } := by
  simp only [Slot.enabledFresh, Slot.begun, SlotTrigger.restState]
  cases x.trigger <;> rfl

theorem ringEnabledFresh_eq (r : Ring) : r.enabledFresh = { r with
    enabled := true
    dropped := 0
    lost := 0
    stream := if r.mode = .stream then
        ⟨.filling .a, ⟨.filling, 0, false, false⟩, ⟨.empty, 0, false, false⟩, false⟩
      else ⟨.off, ⟨.empty, 0, false, false⟩, ⟨.empty, 0, false, false⟩, false⟩
    snapshot := ⟨if r.mode = .snapshot then .run else .off, 0, 0, 0, false, none, none⟩ } := by
  cases h : r.mode <;> simp only [Ring.enabledFresh, Ring.begun, h] <;> rfl

/-- Settles O53: what each table's operation gives is what the request answers. -/
theorem enableChecksAndBegins : Obligations.EnableChecksAndBegins := by
  intro s q table index hq ha
  have tables : ∀ {n x}, table.toNat = n → tableOf n = some x → tableOf table.toNat = some x :=
    fun hn hx => hn ▸ hx
  refine ⟨fun h => exec_enable_badTable hq ha (tableOf_eq_none h), ?_, ?_, ?_, ?_, ?_, ?_⟩
  · rintro (h | h)
    · exact exec_enable hq ha (tables h rfl) rfl
    · exact exec_enable hq ha (tables h rfl) rfl
  · rintro (⟨h, hi⟩ | ⟨h, hi⟩ | ⟨h, hi⟩ | ⟨h, hi⟩)
    all_goals
      refine exec_enable hq ha (tables h rfl) ?_
      simp only [State.enableEntry, indexBelow_eq_none hi, atIndex]
  · intro c x h hi hx
    have answer {status t} (he : s.enableChannel c = (status, t)) :=
      exec_enable hq ha (tables h rfl) ((s.enableEntry_channel hi).trans he)
    obtain ⟨h₁, h₂, h₃⟩ := enableChannel_checks s c hx
    refine ⟨fun he => answer (h₁ he), fun he hn => answer (h₂ he hn), fun he h0 hown => ?_⟩
    obtain ⟨htaken, hfree⟩ := h₃ he h0 hown
    refine ⟨fun hk => answer (htaken ?_), fun hk => ⟨_, s.passBy_offersGone _, answer (hfree ?_)⟩⟩
    · subst hx; exact (s.keyTaken_iff c).mpr hk
    · rw [Bool.eq_false_iff, Ne, s.keyTaken_iff, ← hx]
      rintro ⟨d, hd, he, hkey⟩
      exact hk d hd he hkey
  · intro k x h hi hx
    have answer {status t} (he : s.enableSlot k = (status, t)) :=
      exec_enable hq ha (tables h rfl) ((s.enableEntry_slot hi).trans he)
    obtain ⟨h₁, h₂, h₃⟩ := enableSlot_checks s k hx
    refine ⟨fun he => answer (h₁ he), fun he hm hn => answer (h₂ he hm hn), fun he hm =>
      ⟨fun hc => answer ((h₃ he hm).1 hc), fun hc => ⟨_, s.passBy_offersGone _, ?_⟩⟩⟩
    rw [← slotEnabledFresh_eq]
    exact answer ((h₃ he hm).2 hc)
  · intro k r h hi hr
    have answer {status t} (he : s.enableRule k = (status, t)) :=
      exec_enable hq ha (tables h rfl) ((s.enableEntry_rule hi).trans he)
    obtain ⟨h₁, h₂, h₃⟩ := enableRule_checks s k hr
    exact ⟨fun he => answer (h₁ he), fun he hbad => answer (h₂ he hbad), fun he hslot hc =>
      ⟨fun hbad => answer ((h₃ he hslot hc).1 hbad),
        fun hs hf ht => answer ((h₃ he hslot hc).2 hs hf ht)⟩⟩
  · intro k r taken h hi hr htaken
    have answer {status t} (he : s.enableRing k = (status, t)) :=
      exec_enable hq ha (tables h rfl) ((s.enableEntry_ring hi).trans he)
    obtain ⟨h₁, h₂, h₃⟩ := enableRing_checks s k hr
    refine ⟨fun he => answer (h₁ he), fun he hbad => answer (h₂ he hbad), fun he hl hslot hlengths => ?_⟩
    obtain ⟨hover, hdep, hok⟩ := h₃ he hl hslot
    have hsame : s.rangeTaken k = taken := by
      rw [Bool.eq_iff_iff, s.rangeTaken_iff, htaken, ← hr]
      constructor
      · rintro ⟨j, hj, hje, ho⟩
        obtain ⟨o, ho⟩ := (overlaps_iff (hlengths j hje) hl).mp ho
        exact ⟨j, o, hj, hje, ho⟩
      · rintro ⟨j, o, hj, hje, ho⟩
        exact ⟨j, hj, hje, (overlaps_iff (hlengths j hje) hl).mpr ⟨o, ho⟩⟩
    rw [hsame] at hover hdep hok
    rw [← ringEnabledFresh_eq]
    exact ⟨fun ht => answer (hover ht), fun ht hs => answer (hdep ht hs), fun ht hs => answer (hok ht hs)⟩

/-! ### DISABLE -/

/-- Settles O54: the checks of each table's operation, by what each of them says of the tables. -/
theorem disableChecksAndEnds : Obligations.DisableChecksAndEnds := by
  intro s q table index hq ha
  have tables : ∀ {n x}, table.toNat = n → tableOf n = some x → tableOf table.toNat = some x :=
    fun hn hx => hn ▸ hx
  refine ⟨fun h => exec_disable_badTable hq ha (tableOf_eq_none h), ?_, ?_, ?_, ?_, ?_, ?_⟩
  · rintro (h | h)
    · exact exec_disable hq ha (tables h rfl) rfl
    · exact exec_disable hq ha (tables h rfl) rfl
  · rintro (⟨h, hi⟩ | ⟨h, hi⟩ | ⟨h, hi⟩ | ⟨h, hi⟩)
    all_goals
      refine exec_disable hq ha (tables h rfl) ?_
      simp only [State.disableEntry, indexBelow_eq_none hi, atIndex]
  · intro c named h hi hnamed
    have answer {status t} (he : s.disableChannel c = (status, t)) :=
      exec_disable hq ha (tables h rfl) ((s.disableEntry_channel hi).trans he)
    have hsame : s.channelHasConsumer c = named := by
      rw [Bool.eq_iff_iff, s.channelHasConsumer_iff, hnamed]
    refine ⟨fun he => answer ?_, fun he hn => answer ?_, fun he hn => answer ?_⟩
    · simp [State.disableChannel, he]
    · simp [State.disableChannel, he, hsame, hn]
    · simp [State.disableChannel, he, hsame, hn]
  · rintro k x named h hi rfl hnamed
    have answer {status t} (he : s.disableSlot k = (status, t)) :=
      exec_disable hq ha (tables h rfl) ((s.disableEntry_slot hi).trans he)
    have hsame : s.slotHasDependent k = named := by
      rw [Bool.eq_iff_iff, s.slotHasDependent_iff, hnamed]
    refine ⟨fun he => answer ?_, fun he hn => answer ?_, fun he hn => answer ?_⟩
    · simp [State.disableSlot, he]
    · simp [State.disableSlot, he, hsame, hn]
    · simp [State.disableSlot, he, hsame, hn, Slot.disabledFresh]
  · rintro k r h hi rfl
    have answer {status t} (he : s.disableRule k = (status, t)) :=
      exec_disable hq ha (tables h rfl) ((s.disableEntry_rule hi).trans he)
    refine ⟨fun he => answer ?_, fun he => answer ?_⟩
    · simp [State.disableRule, he]
    · simp [State.disableRule, he, Rule.disabledFresh]
  · rintro k r busy named h hi rfl hbusy hnamed
    have answer {status t} (he : s.disableRing k = (status, t)) :=
      exec_disable hq ha (tables h rfl) ((s.disableEntry_ring hi).trans he)
    have hsame : s.ringHasFreezer k = named := by
      rw [Bool.eq_iff_iff, s.ringHasFreezer_iff, hnamed]
    have hring : s.readout.engine.ring = some k ↔ busy = true := by
      rw [hbusy]
      cases s.readout.engine <;> simp [EngineState.ring]
    refine ⟨fun he => answer ?_, fun he hb => answer ?_, fun he hb hn => answer ?_,
      fun he hb hn => answer ?_⟩
    · simp [State.disableRing, he]
    · simp [State.disableRing, he, hring, hb]
    · simp [State.disableRing, he, hring, hb, hsame, hn]
    · simp [State.disableRing, he, hring, hb, hsame, hn, Ring.disabledFresh]
      rfl

end Sys2Proof

/-! ## WRITE_ENTRY: what a write makes of an entry (O52) -/

namespace Sys2Proof

open Sys2Proof.Machine

/-! ### Reading a value that has a range -/

/-- A checked value is read exactly where it is good. -/
structure Reads {α : Type} (read : Option α) (good : Prop) (value : α) : Prop where
  of_good : good → read = some value
  of_bad : ¬ good → read = none

section
variable {α β : Type} {read : Option α} {good good' : Prop} {value : α}

theorem Reads.of_iff (h : Reads read good value) (hg : good' ↔ good) : Reads read good' value :=
  ⟨fun hv => h.of_good (hg.mp hv), fun hv => h.of_bad fun hn => hv (hg.mpr hn)⟩

/-- A field is checked where the mask names it, and kept where it does not (R134 check 6, R135). -/
theorem Reads.field (h : Reads read good value) (mask k : Nat) (old : α) :
    Reads (field mask k old read) (mask.testBit k = true → good)
      (if mask.testBit k = true then value else old) := by
  cases hk : mask.testBit k
  · exact ⟨fun _ => by simp [Machine.field, hk], fun hn => absurd (fun h => (nomatch h)) hn⟩
  · simp only [Machine.field, hk, if_true, forall_const]
    exact h

/-- Values read one after the other are all good, or the write has no result. -/
theorem Reads.bind (h : Reads read good value) {f : α → Option β} {w : β}
    (hf : Reads (f value) good' w) : Reads (read.bind f) (good ∧ good') w where
  of_good hg := by rw [h.of_good hg.1]; exact hf.of_good hg.2
  of_bad hg := by
    by_cases h₁ : good
    · rw [h.of_good h₁]; exact hf.of_bad fun h₂ => hg ⟨h₁, h₂⟩
    · rw [h.of_bad h₁]; rfl

theorem Reads.last (h : Reads read good value) (f : α → β) :
    Reads (read.bind fun x => some (f x)) good (f value) where
  of_good hg := by rw [h.of_good hg]; rfl
  of_bad hg := by rw [h.of_bad hg]; rfl

theorem reads_some (x : α) : Reads (some x) True x := ⟨fun _ => rfl, fun h => absurd trivial h⟩

theorem reads_if (b : Bool) (x : α) : Reads (if b = true then some x else none) (b = true) x :=
  ⟨fun h => if_pos h, fun h => if_neg h⟩

end

theorem reads_inRange (lo hi n : Nat) : Reads (inRange lo hi n) (lo ≤ n ∧ n ≤ hi) n :=
  ⟨fun h => if_pos h, fun h => if_neg h⟩

/-- The upper bound of a byte's range is no check (section 10.5). -/
theorem reads_byte (lo : Nat) (v : List Byte) (i : Nat) :
    Reads (inRange lo 255 (byteAt v i)) (lo ≤ byteAt v i) (byteAt v i) :=
  (reads_inRange lo 255 _).of_iff ⟨fun h => ⟨h, Nat.le_of_lt_succ (byteAt_lt v i)⟩, And.left⟩

theorem reads_multipleOf64 (lo hi n : Nat) :
    Reads (multipleOf64 lo hi n) (n % 64 = 0 ∧ lo ≤ n ∧ n ≤ hi) n where
  of_good h := by simp only [multipleOf64, if_pos h.1, (reads_inRange lo hi n).of_good h.2]
  of_bad h := by
    by_cases h₀ : n % 64 = 0
    · simp only [multipleOf64, if_pos h₀, (reads_inRange lo hi n).of_bad fun hr => h ⟨h₀, hr⟩]
    · exact if_neg h₀

theorem reads_indexBelow (m n : Nat) : Reads (indexBelow (m + 1) n) (n ≤ m) (Fin.ofNat (m + 1) n) where
  of_good h := by rw [indexBelow_of_val]; exact (Nat.mod_eq_of_lt (by omega)).symm
  of_bad h := indexBelow_eq_none (by omega)

theorem reads_optionalIndex (m n : Nat) : Reads (optionalIndex (m + 1) n) (n ≤ m ∨ n = 255)
    (if n = 255 then none else some (Fin.ofNat (m + 1) n)) := by
  by_cases hn : n = 255
  · simp only [optionalIndex, hn, if_true, or_true]
    exact reads_some _
  · simp only [optionalIndex, hn, if_false, or_false]
    exact ⟨fun h => by rw [(reads_indexBelow m n).of_good h]; rfl,
      fun h => by rw [(reads_indexBelow m n).of_bad h]; rfl⟩

/-- A code of two values. -/
theorem reads_code {α : Type} (a b : α) (n : Nat) :
    Reads (if n = 0 then some a else if n = 1 then some b else none) (n ≤ 1) (if n = 0 then a else b) := by
  rcases n with _ | _ | n
  · exact ⟨fun _ => rfl, fun h => absurd (by omega) h⟩
  · exact ⟨fun _ => rfl, fun h => absurd (by omega) h⟩
  · exact ⟨fun h => absurd h (by omega), fun _ => rfl⟩

/-- A code of three values. -/
theorem reads_code3 {α : Type} (a b c : α) (n : Nat) :
    Reads (if n = 0 then some a else if n = 1 then some b else if n = 2 then some c else none) (n ≤ 2)
      (if n = 0 then a else if n = 1 then b else c) := by
  rcases n with _ | _ | _ | n
  · exact ⟨fun _ => rfl, fun h => absurd (by omega) h⟩
  · exact ⟨fun _ => rfl, fun h => absurd (by omega) h⟩
  · exact ⟨fun _ => rfl, fun h => absurd (by omega) h⟩
  · exact ⟨fun h => absurd h (by omega), fun _ => rfl⟩

theorem reads_criterion (n : Nat) : Reads (criterionOf n) (n ≤ 4)
    (if n = 0 then .above else if n = 1 then .below else if n = 2 then .inside
      else if n = 3 then .outside else .step) where
  of_good h := by interval_cases n <;> rfl
  of_bad h := by
    have : n ≠ 0 ∧ n ≠ 1 ∧ n ≠ 2 ∧ n ≠ 3 ∧ n ≠ 4 := by omega
    simp [criterionOf, this]

theorem reads_flag (n : Nat) : Reads (flagOf n) (n ≤ 1) (decide (n = 1)) := by
  rcases n with _ | _ | n
  · exact ⟨fun _ => rfl, fun h => absurd (by omega) h⟩
  · exact ⟨fun _ => rfl, fun h => absurd (by omega) h⟩
  · exact ⟨fun h => absurd h (by omega), fun _ => rfl⟩

/-! ### The entry after a write, table by table -/

theorem reads_channelWrite (x : Channel) (mask : Nat) (v : List Byte) :
    Reads (x.write mask v) (ChannelValuesGood mask v) (channelWritten x mask v) :=
  (((reads_inRange 1 30 _).field mask 0 x.node).bind
    (((reads_inRange 0 15 _).field mask 1 x.input).bind
    (((reads_code Format.signed .unsigned _).field mask 2 x.format).bind
    (((reads_code3 ForwardPolicy.pass .thin .drop _).field mask 3 x.policy).bind
    (((reads_byte 2 v 5).field mask 4 x.divisor).last _))))).of_iff
      (by simp only [ChannelValuesGood, Nat.zero_le, true_and])

/-- A SLOT entry with the named fields taken from their bytes, before what is in flight is looked at. -/
def slotFields (x : Slot) (mask : Nat) (v : List Byte) : Slot :=
  { x with
    channel := if mask.testBit 0 = true then Fin.ofNat 64 (byteAt v 1) else x.channel
    mode := if mask.testBit 1 = true then
        (if byteAt v 2 = 0 then .mean else if byteAt v 2 = 1 then .enhance else .peak)
      else x.mode
    exponent := if mask.testBit 2 = true then byteAt v 3 else x.exponent
    trigger := if mask.testBit 3 = true then (if byteAt v 4 = 0 then .continuous else .gated)
      else x.trigger
    toEgress := if mask.testBit 4 = true then decide (byteAt v 5 = 1) else x.toEgress
    notifyBroken := if mask.testBit 5 = true then decide (byteAt v 6 = 1) else x.notifyBroken }

theorem reads_slotWrite (x : Slot) (mask : Nat) (v : List Byte) :
    Reads (x.write mask v) (SlotValuesGood mask v) (slotFields x mask v) :=
  (((reads_indexBelow 63 _).field mask 0 x.channel).bind
    (((reads_code3 SlotMode.mean .enhance .peak _).field mask 1 x.mode).bind
    (((reads_inRange 1 8 _).field mask 2 x.exponent).bind
    (((reads_code SlotTrigger.continuous .gated _).field mask 3 x.trigger).bind
    (((reads_flag _).field mask 4 x.toEgress).bind
    (((reads_flag _).field mask 5 x.notifyBroken).last _)))))).of_iff Iff.rfl

/-- A RULE entry with the named fields taken from their bytes, before what is in flight is looked at. -/
def ruleFields (x : Rule) (mask : Nat) (v : List Byte) : Rule :=
  { x with
    sourceKind := if mask.testBit 0 = true then (if byteAt v 1 = 0 then .channel else .slot)
      else x.sourceKind
    sourceIndex := if mask.testBit 1 = true then Fin.ofNat 64 (byteAt v 2) else x.sourceIndex
    peakPart := if mask.testBit 2 = true then (if byteAt v 3 = 0 then .max else .min) else x.peakPart
    criterion := if mask.testBit 3 = true then
        (if byteAt v 4 = 0 then .above else if byteAt v 4 = 1 then .below
          else if byteAt v 4 = 2 then .inside else if byteAt v 4 = 3 then .outside else .step)
      else x.criterion
    low := if mask.testBit 4 = true then readSigned4 v 5 else x.low
    high := if mask.testBit 5 = true then readSigned4 v 9 else x.high
    hyst := if mask.testBit 6 = true then read4 v 13 else x.hyst
    persistence := if mask.testBit 7 = true then byteAt v 17 else x.persistence
    eventOnAssert := if mask.testBit 8 = true then decide (byteAt v 18 = 1) else x.eventOnAssert
    eventOnRelease := if mask.testBit 9 = true then decide (byteAt v 19 = 1) else x.eventOnRelease
    freezeRing := if mask.testBit 10 = true then
        (if byteAt v 20 = 255 then none else some (Fin.ofNat 8 (byteAt v 20)))
      else x.freezeRing
    startSlot := if mask.testBit 11 = true then
        (if byteAt v 21 = 255 then none else some (Fin.ofNat 16 (byteAt v 21)))
      else x.startSlot }

theorem reads_ruleWrite (x : Rule) (mask : Nat) (v : List Byte) :
    Reads (x.write mask v) (RuleValuesGood mask v) (ruleFields x mask v) :=
  (((reads_code SourceKind.channel .slot _).field mask 0 x.sourceKind).bind
    (((reads_indexBelow 63 _).field mask 1 x.sourceIndex).bind
    (((reads_code PeakPart.max .min _).field mask 2 x.peakPart).bind
    (((reads_criterion _).field mask 3 x.criterion).bind
    (((reads_some (readSigned4 v 5)).field mask 4 x.low).bind
    (((reads_some (readSigned4 v 9)).field mask 5 x.high).bind
    (((reads_inRange 0 2147483647 _).field mask 6 x.hyst).bind
    (((reads_byte 1 v 17).field mask 7 x.persistence).bind
    (((reads_flag _).field mask 8 x.eventOnAssert).bind
    (((reads_flag _).field mask 9 x.eventOnRelease).bind
    (((reads_optionalIndex 7 _).field mask 10 x.freezeRing).bind
    (((reads_optionalIndex 15 _).field mask 11 x.startSlot).last _)))))))))))).of_iff
      (by simp only [RuleValuesGood, Nat.zero_le, true_and, imp_true_iff])

/-- A RING entry with the named fields taken from their bytes, before what is in flight is looked at. -/
def ringFields (x : Ring) (mask : Nat) (v : List Byte) : Ring :=
  { x with
    base := if mask.testBit 0 = true then read2 v 1 else x.base
    length := if mask.testBit 1 = true then read4 v 3 else x.length
    mode := if mask.testBit 2 = true then (if byteAt v 7 = 0 then .stream else .snapshot) else x.mode
    sourceKind := if mask.testBit 3 = true then (if byteAt v 8 = 0 then .channel else .slot)
      else x.sourceKind
    sourceIndex := if mask.testBit 4 = true then Fin.ofNat 64 (byteAt v 9) else x.sourceIndex
    overflow := if mask.testBit 5 = true then (if byteAt v 10 = 0 then .stall else .overwrite)
      else x.overflow
    postCount := if mask.testBit 6 = true then read4 v 11 else x.postCount
    notify := if mask.testBit 7 = true then decide (byteAt v 15 = 1) else x.notify }

theorem relationsGood_iff (r : Ring) :
    r.relationsGood = true ↔ r.base + r.length ≤ 65536 ∧ r.postCount ≤ r.length := by
  simp only [Ring.relationsGood, Config.captureWords, Bool.and_eq_true, decide_eq_true_eq]

theorem reads_ringWrite (x : Ring) (mask : Nat) (v : List Byte) :
    Reads (x.write mask v) (RingValuesGood x mask v) (ringFields x mask v) :=
  (((reads_multipleOf64 0 65472 _).field mask 0 x.base).bind
    (((reads_multipleOf64 128 65536 _).field mask 1 x.length).bind
    (((reads_code RingMode.stream .snapshot _).field mask 2 x.mode).bind
    (((reads_code SourceKind.channel .slot _).field mask 3 x.sourceKind).bind
    (((reads_indexBelow 63 _).field mask 4 x.sourceIndex).bind
    (((reads_code OverflowPolicy.stall .overwrite _).field mask 5 x.overflow).bind
    (((reads_some (read4 v 11)).field mask 6 x.postCount).bind
    (((reads_flag _).field mask 7 x.notify).bind
    (reads_if _ (ringFields x mask v)))))))))).of_iff
      (by simp only [RingValuesGood, relationsGood_iff, Nat.zero_le, true_and, imp_true_iff])

theorem reads_globalWrite (g : Global) (mask : Nat) (v : List Byte) :
    Reads (g.write mask v) (GlobalValuesGood mask v) (globalWritten g mask v) :=
  (((reads_code UnknownPolicy.pass .drop _).field mask 1 g.unknownPolicy).bind
    (((reads_inRange 1 16 _).field mask 2 g.eventWindow).bind
    (((reads_byte 1 v 3).field mask 3 g.retransmitTimeout).bind
    (((reads_inRange 1 15 _).field mask 4 g.retryLimit).bind
    (((reads_inRange 1 64 _).field mask 5 g.reducedHold).bind
    (((reads_inRange 1 16 _).field mask 6 g.dtStreak).last _)))))).of_iff Iff.rfl

end Sys2Proof

/-! ### The mask, and the checks in their order (R134) -/

namespace Sys2Proof

open Sys2Proof.Machine

theorem and_pow_eq_mod (mask k : Nat) : mask &&& (2 ^ k - 1) = mask % 2 ^ k :=
  Nat.and_two_pow_sub_one_eq_mod mask k

/-- The fields of these tables that can be written are the first `k` (section 10.5). -/
theorem maskGood_iff {x : TableId} {k : Nat} (hx : x.writable = 2 ^ k - 1) (mask : Nat) :
    maskGood x mask = true ↔ mask ≠ 0 ∧ mask < 2 ^ k := by
  have hpos : 0 < 2 ^ k := Nat.two_pow_pos k
  simp only [maskGood, hx, and_pow_eq_mod, Bool.and_eq_true, decide_eq_true_eq]
  exact and_congr_right fun _ => ⟨fun h => h ▸ Nat.mod_lt _ hpos, Nat.mod_eq_of_lt⟩

/-- The bound fields of these tables are the first `k` (section 10.5). -/
theorem maskBound_iff {x : TableId} {k : Nat} (hx : x.bound = 2 ^ k - 1) (mask : Nat) :
    maskBound x mask = true ↔ mask % 2 ^ k ≠ 0 := by
  simp only [maskBound, hx, and_pow_eq_mod, decide_eq_true_eq]

/-- The bound fields of a rule are its first four, freeze ring and start slot. -/
theorem ruleMaskBound_iff {mask : Nat} (hm : mask < 4096) :
    maskBound .rule mask = true ↔ mask % 16 ≠ 0 ∨ 1024 ≤ mask := by
  have hlow : (mask &&& 3087) % 1024 = mask % 1024 % 16 :=
    (Nat.and_mod_two_pow (n := 10)).trans (and_pow_eq_mod _ 4)
  have hhigh : (mask &&& 3087) / 1024 = mask / 1024 % 4 :=
    (Nat.and_div_two_pow (n := 10)).trans (and_pow_eq_mod _ 2)
  have hbound : maskBound .rule mask = true ↔ mask &&& 3087 ≠ 0 := decide_eq_true_iff
  rw [hbound]
  omega

/-- The fields of GLOBAL that can be written are those numbered 1 to 6. -/
theorem globalMaskGood_iff (mask : Nat) :
    maskGood .global mask = true ↔ mask % 2 = 0 ∧ mask < 128 ∧ mask ≠ 0 := by
  have hlow : (mask &&& 126) % 2 = 0 :=
    (Nat.and_mod_two_pow (n := 1)).trans (Nat.and_zero _)
  have hhigh : (mask &&& 126) / 2 = mask / 2 % 64 :=
    (Nat.and_div_two_pow (n := 1)).trans (and_pow_eq_mod _ 6)
  have hgood : maskGood .global mask = true ↔ mask ≠ 0 ∧ mask &&& 126 = mask := by
    rw [maskGood, Bool.and_eq_true, decide_eq_true_iff, decide_eq_true_iff]
    rfl
  rw [hgood]
  omega

/-- Checks 4 to 7 of R134 and the write, with what the mask and the values are to be. -/
theorem writeChecked_spec {α : Type} {x : TableId} {mask : Nat} {new : Option α} {good : Prop} {w : α}
    {accepted bound : Prop} (hm : maskGood x mask = true ↔ accepted)
    (hb : accepted → (maskBound x mask = true ↔ bound)) (hr : Reads new good w) (enabled : Bool)
    (fits : α → Bool) (s : State) (put : α → State) {r : Status × State}
    (hw : writeChecked x enabled mask new fits s put = r) :
    (¬ accepted → r = (.badValue, s))
    ∧ (accepted → enabled = true → bound → r = (.liveField, s))
    ∧ (accepted → (enabled = false ∨ ¬ bound) →
      (good → (fits w = true → r = (.ok, put w)) ∧ (fits w = false → r = (.badValue, s)))
      ∧ (¬ good → r = (.badValue, s))) := by
  subst hw
  refine ⟨fun ha => ?_, fun ha he hbound => ?_, fun ha hfree => ?_⟩
  · exact if_pos (Bool.eq_false_iff.mpr fun h => ha (hm.mp h))
  · have hgood := hm.mpr ha
    have hbound := (hb ha).mpr hbound
    simp [writeChecked, hgood, he, hbound]
  · have hgood := hm.mpr ha
    have hfree : ¬ (enabled = true ∧ maskBound x mask = true) := by
      rintro ⟨he, hbound⟩
      rcases hfree with hd | hn
      · simp [hd] at he
      · exact hn ((hb ha).mp hbound)
    refine ⟨fun hv => ⟨fun hf => ?_, fun hf => ?_⟩, fun hv => ?_⟩
    · simp [writeChecked, hgood, hfree, hr.of_good hv, hf]
    · simp [writeChecked, hgood, hfree, hr.of_good hv, hf]
    · simp [writeChecked, hgood, hfree, hr.of_bad hv]

/-! ### The entry that a table code and an index name (R134 checks 1 to 3) -/

section
variable {s : State} {q : Request} {table index m₃ m₂ m₁ m₀ : Byte} {values : List Byte} {mask : Nat}
  (h : Executes s q 0x03) (ha : q.args = table :: index :: m₃ :: m₂ :: m₁ :: m₀ :: values)
  (hl : argumentLengthGood 0x03 q.args = true)
include h ha hl

theorem exec_writeEntry
    (hm : mask = ((m₃.toNat * 256 + m₂.toNat) * 256 + m₁.toNat) * 256 + m₀.toNat) {x : TableId}
    (hx : tableOf table.toNat = some x) {status : Status} {t : State}
    (ht : s.writeEntry x index.toNat mask values = (status, t)) :
    exec .writeEntry s = .next (answered t q status []) := by
  show execWriteEntry s = _
  refine h.request_answers _ hl ?_
  have hx : tableOf (byteAt q.args 0) = some x := by rw [ha]; exact hx
  have ht : s.writeEntry x (byteAt q.args 1) (read4 q.args 2) (q.args.drop 6) = (status, t) := by
    rw [ha, ← ht, hm]; rfl
  simp only [hx, ht, bare]

theorem exec_writeEntry_badTable (hx : tableOf table.toNat = none) :
    exec .writeEntry s = .next (answered s q .badValue []) := by
  show execWriteEntry s = _
  refine h.request_answers _ hl ?_
  have hx : tableOf (byteAt q.args 0) = none := by rw [ha]; exact hx
  simp only [hx]

end

section
variable (s : State) {i : Nat} (mask : Nat) (v : List Byte)

theorem Machine.State.writeEntry_channel {c : Fin 64} (h : i = c.val) :
    s.writeEntry .channel i mask v = s.writeChannel c mask v := by
  simp only [State.writeEntry, indexBelow_of_val h, atIndex]

theorem Machine.State.writeEntry_slot {k : Fin 16} (h : i = k.val) :
    s.writeEntry .slot i mask v = s.writeSlot k mask v := by
  simp only [State.writeEntry, indexBelow_of_val h, atIndex]

theorem Machine.State.writeEntry_rule {k : Fin 32} (h : i = k.val) :
    s.writeEntry .rule i mask v = s.writeRule k mask v := by
  simp only [State.writeEntry, indexBelow_of_val h, atIndex]

theorem Machine.State.writeEntry_ring {k : Fin 8} (h : i = k.val) :
    s.writeEntry .ring i mask v = s.writeRing k mask v := by
  simp only [State.writeEntry, indexBelow_of_val h, atIndex]

end

/-! ### The entry that is left, with what is in flight to it -/

/-- An index that passes its check is the number. -/
theorem named_index_val {m n : Nat} {p : Prop} [Decidable p] (h : p → n ≤ m) (old : Fin (m + 1)) :
    (if p then Fin.ofNat (m + 1) n else old).val = if p then n else old.val := by
  split
  · next hp => exact Nat.mod_eq_of_lt (Nat.lt_succ_of_le (h hp))
  · rfl

theorem named_optional_val {m n : Nat} {p : Prop} [Decidable p] (h : p → n ≤ m ∨ n = 255)
    (old : Option (Fin (m + 1))) :
    (if p then (if n = 255 then none else some (Fin.ofNat (m + 1) n)) else old).map (·.val)
      = if p then (if n = 255 then none else some n) else old.map (·.val) := by
  split
  · next hp =>
    split
    · rfl
    · next hn =>
      have hlt : n < m + 1 := by have := h hp; omega
      simp [Nat.mod_eq_of_lt hlt]
  · rfl

theorem slotWritten_rewritten {x : Slot} {mask : Nat} {v : List Byte} (h : SlotValuesGood mask v) :
    SlotWritten x (x.rewritten (slotFields x mask v)) mask v := by
  obtain ⟨hc, _⟩ := h
  rw [Slot.rewritten_eq]
  exact ⟨named_index_val hc _, rfl⟩

theorem ruleWritten_rewritten {x : Rule} {mask : Nat} {v : List Byte} (h : RuleValuesGood mask v) :
    RuleWritten x (x.rewritten (ruleFields x mask v)) mask v := by
  obtain ⟨_, hi, _, _, _, _, _, _, hf, hs⟩ := h
  rw [Rule.rewritten_eq]
  exact ⟨named_index_val hi _, named_optional_val hf _, named_optional_val hs _, rfl⟩

theorem ringWritten_rewritten {x : Ring} {mask : Nat} {v : List Byte} (h : RingValuesGood x mask v) :
    RingWritten x (x.rewritten (ringFields x mask v)) mask v := by
  obtain ⟨_, _, _, _, hi, _⟩ := h
  rw [Ring.rewritten_eq]
  exact ⟨named_index_val hi _, rfl⟩

/-- What is in flight to a rule is no part of its consistency (R45). -/
theorem consistentRule_rewritten (x w : Rule) : ConsistentRule (x.rewritten w) ↔ ConsistentRule w := by
  rw [Rule.rewritten_eq]

/-- Settles O52: the checks in the order of R134 come once, for every table, and each table's fields are
read one by one. -/
theorem writeEntryIsAllOrNothing : Obligations.WriteEntryIsAllOrNothing := by
  intro s q table index m₃ m₂ m₁ m₀ v mask hq ha hm hl
  have tables : ∀ {n x}, table.toNat = n → tableOf n = some x → tableOf table.toNat = some x :=
    fun hn hx => hn ▸ hx
  have answer {x : TableId} {n : Nat} (hn : table.toNat = n) (hx : tableOf n = some x) {status : Status}
      {t : State} (ht : s.writeEntry x index.toNat mask v = (status, t)) :=
    exec_writeEntry hq ha hl hm (tables hn hx) ht
  refine ⟨fun h => exec_writeEntry_badTable hq ha hl (tableOf_eq_none h), fun h => answer h rfl rfl, ?_,
    ?_, ?_, ?_, ?_, ?_⟩
  · rintro (⟨h, hi⟩ | ⟨h, hi⟩ | ⟨h, hi⟩ | ⟨h, hi⟩ | ⟨h, hi⟩)
    · exact answer h rfl (by simp only [State.writeEntry, indexBelow_eq_none hi, atIndex])
    · exact answer h rfl (by simp only [State.writeEntry, indexBelow_eq_none hi, atIndex])
    · exact answer h rfl (by simp only [State.writeEntry, indexBelow_eq_none hi, atIndex])
    · exact answer h rfl (by simp only [State.writeEntry, indexBelow_eq_none hi, atIndex])
    · exact answer h rfl (if_neg hi)
  · rintro c x h hi rfl
    obtain ⟨hbad, hlive, hwrite⟩ := writeChecked_spec (maskGood_iff (k := 5) rfl mask)
      (fun _ => maskBound_iff (k := 3) rfl mask) (reads_channelWrite _ mask v) (s.channel c).enabled
      (fun _ => true) s (s.setChannel c) (s.writeEntry_channel mask v hi).symm
    refine ⟨fun h0 => answer h rfl (hbad (by omega)), fun h0 hn he hb => answer h rfl (hlive ⟨h0, hn⟩ he hb),
      fun h0 hn hfree => ?_⟩
    obtain ⟨hok, hno⟩ := hwrite ⟨h0, hn⟩ (hfree.imp_right fun hz hnz => hnz hz)
    exact ⟨fun hg => answer h rfl ((hok hg).1 rfl), fun hg => answer h rfl (hno hg)⟩
  · rintro k x h hi rfl
    obtain ⟨hbad, hlive, hwrite⟩ := writeChecked_spec (maskGood_iff (k := 6) rfl mask)
      (fun _ => maskBound_iff (k := 4) rfl mask) (reads_slotWrite _ mask v) (s.slots.get k).enabled
      (fun _ => true) s (fun y => s.setSlot k ((s.slots.get k).rewritten y))
      (s.writeEntry_slot mask v hi).symm
    refine ⟨fun h0 => answer h rfl (hbad (by omega)), fun h0 hn he hb => answer h rfl (hlive ⟨h0, hn⟩ he hb),
      fun h0 hn hfree => ?_⟩
    obtain ⟨hok, hno⟩ := hwrite ⟨h0, hn⟩ (hfree.imp_right fun hz hnz => hnz hz)
    exact ⟨fun hg => ⟨_, slotWritten_rewritten hg, answer h rfl ((hok hg).1 rfl)⟩,
      fun hg => answer h rfl (hno hg)⟩
  · rintro k x h hi rfl
    obtain ⟨hbad, hlive, hwrite⟩ := writeChecked_spec (maskGood_iff (k := 8) rfl mask)
      (fun _ => maskBound_iff (k := 5) rfl mask) (reads_ringWrite _ mask v) (s.rings.get k).enabled
      (fun _ => true) s (fun y => s.setRing k ((s.rings.get k).rewritten y))
      (s.writeEntry_ring mask v hi).symm
    refine ⟨fun h0 => answer h rfl (hbad (by omega)), fun h0 hn he hb => answer h rfl (hlive ⟨h0, hn⟩ he hb),
      fun h0 hn hfree => ?_⟩
    obtain ⟨hok, hno⟩ := hwrite ⟨h0, hn⟩ (hfree.imp_right fun hz hnz => hnz hz)
    exact ⟨fun hg => ⟨_, ringWritten_rewritten hg, answer h rfl ((hok hg).1 rfl)⟩,
      fun hg => answer h rfl (hno hg)⟩
  · rintro k x h hi rfl
    obtain ⟨hbad, hlive, hwrite⟩ := writeChecked_spec (maskGood_iff (k := 12) rfl mask)
      (fun hn => ruleMaskBound_iff hn.2) (reads_ruleWrite _ mask v) (s.rules.get k).enabled
      (fun r => !r.enabled || r.consistent) s (fun y => s.setRule k ((s.rules.get k).rewritten y))
      (s.writeEntry_rule mask v hi).symm
    refine ⟨fun h0 => answer h rfl (hbad (by omega)), fun h0 hn he hb => answer h rfl (hlive ⟨h0, hn⟩ he hb),
      fun h0 hn hfree => ?_⟩
    obtain ⟨hok, hno⟩ := hwrite ⟨h0, hn⟩ (hfree.imp_right fun hz hnz => by omega)
    refine ⟨fun hg => ⟨_, ruleWritten_rewritten hg, fun he hc => ?_, fun hc => ?_⟩,
      fun hg => answer h rfl (hno hg)⟩
    · rw [consistentRule_rewritten, ← Rule.consistent_iff] at hc
      have hfits := Bool.or_eq_false_iff.mpr ⟨congrArg (!·) he, Bool.eq_false_iff.mpr hc⟩
      exact answer h rfl ((hok hg).2 hfits)
    · rw [consistentRule_rewritten, ← Rule.consistent_iff] at hc
      have hfits := (Bool.or_eq_true _ _).mpr (hc.imp_left fun he => congrArg (!·) he)
      exact answer h rfl ((hok hg).1 hfits)
  · intro h hi
    obtain ⟨hbad, _, hwrite⟩ := writeChecked_spec (bound := False) (globalMaskGood_iff mask)
      (fun _ => by simp [maskBound, TableId.bound]) (reads_globalWrite s.management.global mask v) false
      (fun _ => true) s s.setGlobal (r := s.writeEntry .global index.toNat mask v) (by
        simp only [State.writeEntry, hi, if_true, State.writeGlobal])
    refine ⟨fun h0 => answer h rfl (hbad (by omega)), fun h0 hn hz => ?_⟩
    obtain ⟨hok, hno⟩ := hwrite ⟨h0, hn, hz⟩ (.inl rfl)
    exact ⟨fun hg => answer h rfl ((hok hg).1 rfl), fun hg => answer h rfl (hno hg)⟩

end Sys2Proof

/-! ## RESTART (O60) -/

namespace Sys2Proof

open Sys2Proof.Machine

/-! ### A request that several blocks take part in, run to its end -/

/-- The states of such a request as its blocks take their shares, by the list of those that have. -/
structure GatherRun (q : Request) (code : Nat) (blocks : List Block) (work : Block → State → State)
    (after : List Block → State) : Prop where
  executes : ∀ bs, Executes (after bs) q code
  length : argumentLengthGood code q.args = true
  taken : ∀ bs, (after bs).management.shares.taken = bs
  share : ∀ bs, ∀ b ∈ blocks, b ∉ bs →
    { (after bs).takeShare work b with choices := (after bs).choices + 1 } = after (bs ++ [b])

section
variable {q : Request} {code : Nat} {blocks : List Block} {work : Block → State → State}
  {answer : State → Answer} {after : List Block → State} {c : Instr}
  (h : GatherRun q code blocks work after) (hc : ∀ s, exec c s = s.gather code blocks work answer)
  (hn : blocks.Nodup)
include h hc hn

/-- The first commands let one block each take its share, whichever it is. -/
theorem GatherRun.shares (k : Nat) (hk : k ≤ blocks.length) :
    ∃ bs : List Block, bs.Nodup ∧ bs ⊆ blocks ∧ bs.length = k
      ∧ ∀ cs, runAll (List.replicate k c ++ cs) (after []) = runAll cs (after bs) := by
  induction k with
  | zero => exact ⟨[], List.nodup_nil, List.nil_subset _, rfl, fun _ => rfl⟩
  | succ k ih =>
    obtain ⟨bs, hd, hs, hl, hrun⟩ := ih (by omega)
    have hleft : (after bs).outstanding blocks ≠ [] := by
      intro hnil
      have hall : blocks ⊆ bs := fun b hb => by
        by_contra hnot
        have hmem : b ∈ (after bs).outstanding blocks :=
          State.mem_outstanding.mpr ⟨hb, (h.taken bs).symm ▸ hnot⟩
        rw [hnil] at hmem
        exact absurd hmem List.not_mem_nil
      have := (List.subperm_of_subset hn hall).length_le
      omega
    obtain ⟨b, hb, hnot, hstep⟩ := (h.executes bs).gather_share h.length work answer hleft
    rw [h.taken] at hnot
    refine ⟨bs ++ [b], ?_, ?_, by simp [hl], fun cs => ?_⟩
    · exact List.nodup_append.mpr ⟨hd, List.nodup_singleton b, fun x hx y hy => by
        rw [List.mem_singleton.mp hy]; rintro rfl; exact hnot hx⟩
    · exact List.append_subset.mpr ⟨hs, List.cons_subset.mpr ⟨hb, List.nil_subset _⟩⟩
    · rw [List.replicate_succ', List.append_assoc, hrun, List.singleton_append, runAll, hc, hstep,
        h.share bs b hb hnot]

/-- All of them, and then the management unit's answer. -/
theorem GatherRun.answers : ∃ bs : List Block, (∀ b ∈ blocks, b ∈ bs) ∧ bs.length = blocks.length
    ∧ runAll (List.replicate (blocks.length + 1) c) (after []) = .next (answered (answer (after bs)).2.2 q
      (answer (after bs)).1 (answer (after bs)).2.1) := by
  obtain ⟨bs, hd, hs, hl, hrun⟩ := h.shares hc hn blocks.length le_rfl
  have hperm : bs.Perm blocks := (List.subperm_of_subset hd hs).perm_of_length_le hl.ge
  refine ⟨bs, fun b hb => hperm.mem_iff.mpr hb, hl, ?_⟩
  have hnone : (after bs).outstanding blocks = [] := List.eq_nil_iff_forall_not_mem.mpr fun b hb => by
    obtain ⟨hb, hnot⟩ := State.mem_outstanding.mp hb
    exact hnot ((h.taken bs).symm ▸ hperm.mem_iff.mpr hb)
  rw [List.replicate_succ', hrun, runAll, hc, (h.executes bs).gather_answers h.length work answer hnone]
  rfl

end

/-! ### One block's share -/

theorem slotRestarted_eq (x : Slot) : x.restarted = { x with
    state := if x.enabled = false then .off else if x.trigger = .continuous then .accum else .idle
    count := 0
    outputIndex := 0
    brokenWindows := 0
    window := none
    afterGap := false } := by
  cases he : x.enabled <;> cases ht : x.trigger <;>
    simp [Slot.restarted, Slot.begun, SlotTrigger.restState, he, ht]

theorem ruleRestarted_eq (r : Rule) : r.restarted = { r with
    state := if r.enabled = true then .clear else .off
    runCount := 0
    previous := none
    asserts := 0
    lastAssert := none } := by
  cases he : r.enabled <;> simp [Rule.restarted, Rule.begun, he]

theorem ringRestarted_eq (r : Ring) : r.restarted = { r with
    dropped := 0
    lost := 0
    stream := if r.enabled = true ∧ r.mode = .stream then
        ⟨.filling .a, ⟨.filling, 0, false, false⟩, ⟨.empty, 0, false, false⟩, false⟩
      else ⟨.off, ⟨.empty, 0, false, false⟩, ⟨.empty, 0, false, false⟩, false⟩
    snapshot := ⟨if r.enabled = true ∧ r.mode = .snapshot then .run else .off, 0, 0, 0, false, none,
      none⟩ } := by
  cases he : r.enabled <;> cases hm : r.mode <;> simp [Ring.restarted, Ring.begun, he, hm] <;>
    exact ⟨rfl, rfl⟩

theorem classifierRestarted_of_eq {s t : State} (h : t.classifier = s.classifier.restarted) :
    ClassifierRestarted s t := by
  refine ⟨fun n => ?_, fun c => ?_, ?_⟩
  · rw [h]; exact Table.get_map _ _ _
  · rw [State.channel, h]; exact Table.get_map _ _ _
  · rw [h]; rfl

theorem slotsRestarted_of_eq {s t : State} (h : t.slots = s.slots.map Slot.restarted) :
    SlotsRestarted s t := fun k => by rw [h, Table.get_map, slotRestarted_eq]

theorem rulesRestarted_of_eq {s t : State} (h : t.rules = s.rules.map Rule.restarted) :
    RulesRestarted s t := fun k => by rw [h, Table.get_map, ruleRestarted_eq]

theorem ringsRestarted_of_eq {s t : State} (h : t.rings = s.rings.map Ring.restarted) :
    RingsRestarted s t := fun k => by rw [h, Table.get_map, ringRestarted_eq]

theorem restartEgress_eq (s : State) : s.restartEgress = { s with
    egress := egressRestarted s.egress
    fPort := { s.fPort with occupancy := s.fPort.occupancy ++ [.removed 0] }
    cPort := { s.cPort with occupancy := s.cPort.occupancy ++ [.removed 0] } } := rfl

theorem events_restarted_eq (e : EventUnit) (link : LinkState) :
    e.restarted (decide (link = .up)) = eventsRestarted e link := by
  simp [EventUnit.restarted, eventsRestarted, EventUnit.started, EventUnit.append, ownRecord, wrap16]

/-- Each block takes the values of its chapter, and the rest is kept (R104, R145). -/
theorem blockRestarted_restartShare (s : State) (b : Block) : BlockRestarted s (State.restartShare b s) b := by
  cases b with
  | classifier => exact ⟨classifierRestarted_of_eq rfl, rfl⟩
  | reduction => exact ⟨slotsRestarted_of_eq rfl, rfl⟩
  | watch => exact ⟨rulesRestarted_of_eq rfl, rfl⟩
  | capture => exact ⟨ringsRestarted_of_eq rfl, rfl⟩
  | events => simp only [BlockRestarted, State.restartShare, events_restarted_eq]
  | fPort | cPort | readout | egress => rfl

/-- The event unit's share and the management unit's, with which RESTART is answered (R147). -/
theorem restartManagement_eq (s : State) : (State.restartShare .events s).restartManagement = { s with
    timebase := 0
    events := eventsRestarted s.events s.cPort.link
    management := { s.management with cache := Table.replicate 4 none }
    egress := { s.egress with mr := [] } } := by
  simp only [State.restartShare, State.restartManagement, events_restarted_eq]

theorem takesPart_restart_iff (b : Block) : takesPart 0x12 b ↔ b ∈ restartBlocks := by
  simp [takesPart, restartBlocks]

/-! ### The whole of RESTART -/

/-- A port when some blocks have taken their shares of RESTART: its own clears its counts, and the capture
unit's has told it of an emptying (R164, R170). -/
def portRestartedBy (x : Port) (own : Block) (bs : List Block) : Port :=
  { x with
    framesGood := if own ∈ bs then 0 else x.framesGood
    crcErrors := if own ∈ bs then 0 else x.crcErrors
    malformed := if own ∈ bs then 0 else x.malformed
    occupancy := x.occupancy ++ if .capture ∈ bs then [.removed 0] else [] }

/-- The part when some blocks have taken their shares of RESTART, in whatever order. -/
def restartedBy (s : State) (bs : List Block) : State :=
  { s with
    classifier := if .classifier ∈ bs then s.classifier.restarted else s.classifier
    slots := if .reduction ∈ bs then s.slots.map Slot.restarted else s.slots
    rules := if .watch ∈ bs then s.rules.map Rule.restarted else s.rules
    rings := if .capture ∈ bs then s.rings.map Ring.restarted else s.rings
    readout := if .capture ∈ bs then s.readout.restarted else s.readout
    egress := if .capture ∈ bs then egressRestarted s.egress else s.egress
    fPort := portRestartedBy s.fPort .fPort bs
    cPort := portRestartedBy s.cPort .cPort bs
    management := { s.management with shares := { s.management.shares with taken := bs } }
    choices := s.choices + bs.length }

theorem gatherRun_restart {s : State} {q : Request} (h : Executes s q 0x12) (ha : q.args = []) :
    GatherRun q codeRestart restartBlocks State.restartShare (restartedBy s) where
  executes _ := h
  length := ha ▸ rfl
  taken _ := rfl
  share bs b hb hnot := by
    simp only [restartBlocks, List.mem_cons, List.not_mem_nil, or_false] at hb
    rcases hb with rfl | rfl | rfl | rfl | rfl | rfl
    all_goals
      simp [State.takeShare, State.noteShare, State.restartShare, restartedBy, portRestartedBy,
        Port.clearCounts, restartEgress_eq, hnot, Nat.add_assoc]

theorem restartedBy_none {s : State} (h : s.management.shares.taken = []) : restartedBy s [] = s := by
  have hm : { s.management with shares := { s.management.shares with taken := [] } } = s.management := by
    rw [← h]
  simp only [restartedBy, portRestartedBy, hm, List.not_mem_nil, if_false, List.append_nil,
    List.length_nil, Nat.add_zero]

/-- When every block has taken its share, their order shows in the noted shares alone. -/
theorem restartedBy_all (s : State) {bs : List Block} (h : ∀ b ∈ restartBlocks, b ∈ bs) :
    restartedBy s bs = { s with
      classifier := s.classifier.restarted
      slots := s.slots.map Slot.restarted
      rules := s.rules.map Rule.restarted
      rings := s.rings.map Ring.restarted
      readout := s.readout.restarted
      egress := egressRestarted s.egress
      fPort := { s.fPort.clearCounts with occupancy := s.fPort.occupancy ++ [.removed 0] }
      cPort := { s.cPort.clearCounts with occupancy := s.cPort.occupancy ++ [.removed 0] }
      management := { s.management with shares := { s.management.shares with taken := bs } }
      choices := s.choices + bs.length } := by
  simp only [restartBlocks, List.forall_mem_cons] at h
  obtain ⟨h₁, h₂, h₃, h₄, h₅, h₆, _⟩ := h
  simp only [restartedBy, portRestartedBy, h₁, h₂, h₃, h₄, h₅, h₆, if_true, Port.clearCounts]

/-- The shares that are noted are forgotten with the answer (R131). -/
theorem answered_setShares (s : State) (shares : Shares) (q : Request) (status : Status)
    (results : List Byte) :
    answered { s with management := { s.management with shares := shares } } q status results
      = answered s q status results := by
  rw [answered_eq, answered_eq]

/-- Settles O60: one share is the block's own reset, the answer the event unit's and the management unit's,
and the shares leave the same part in whatever order they are taken. -/
theorem restartResetsRuntimeState : Obligations.RestartResetsRuntimeState := by
  refine ⟨fun s q hq ha => ?_, fun p s hs => ?_⟩
  · have hl : argumentLengthGood 0x12 q.args = true := ha ▸ rfl
    have hx : ∀ u, exec .restart u = u.gather codeRestart restartBlocks State.restartShare
        fun t => (.ok, [], (t.restartShare .events).restartManagement) := fun _ => rfl
    refine ⟨?_, fun hall => ?_, fun hnone => ?_⟩
    · rintro ⟨b, hb, hnot⟩
      have hleft : s.outstanding restartBlocks ≠ [] := List.ne_nil_of_mem
        (State.mem_outstanding.mpr ⟨(takesPart_restart_iff b).mp hb, hnot⟩)
      obtain ⟨b, hb, hnot, hstep⟩ := hq.gather_share hl State.restartShare
        (fun t => (.ok, [], (t.restartShare .events).restartManagement)) hleft
      refine ⟨b, State.restartShare b s, (takesPart_restart_iff b).mpr hb, hnot,
        blockRestarted_restartShare s b, (hx s).trans (hstep.trans ?_)⟩
      cases b <;> rfl
    · have hempty : s.outstanding restartBlocks = [] := List.eq_nil_iff_forall_not_mem.mpr fun b hb => by
        obtain ⟨hb, hnot⟩ := State.mem_outstanding.mp hb
        exact hnot (hall b ((takesPart_restart_iff b).mpr hb))
      refine ⟨_, (hx s).trans (hq.gather_answers hl _ _ hempty), fun tag => ?_, ?_⟩
      · exact Table.get_replicate _ _
      · rw [restartManagement_eq]
    · obtain ⟨bs, hall, hlen, hrun⟩ := (gatherRun_restart hq ha).answers hx (by decide)
      rw [restartedBy_none hnone] at hrun
      refine ⟨{ (State.restartShare .events (restartedBy s bs)).restartManagement with
        management := { s.management with cache := Table.replicate 4 none } }, ?_, fun tag => ?_, ?_⟩
      · refine hrun.trans (congrArg Host.Outcome.next ?_)
        exact (answered_setShares _ s.management.shares q .ok []).symm
      · exact Table.get_replicate _ _
      · rw [restartManagement_eq, restartedBy_all s hall, hlen]
        exact ⟨classifierRestarted_of_eq rfl, slotsRestarted_of_eq rfl, rulesRestarted_of_eq rfl,
          ringsRestarted_of_eq rfl, fun p => by cases p <;> rfl, rfl⟩
  · simp only [exec, execHoldSentChange, hs, Port.takeOccupancy_eq]
    cases hh : (s.port p).holdSent <;> simp [holdSentAfter]

end Sys2Proof

/-! ## Slot windows and rule run counts (O7)

`MachinesSound` puts the two statements together. Few commands reach a slot or a rule, and each of these
keeps them sound; every other command leaves both tables as they are. -/

namespace Sys2Proof

open Sys2Proof.Machine

/-! ### What keeps a slot sound (R24, R27) -/

/-- A disabled slot is OFF and holds no sample. -/
theorem slotSound_off {x : Slot} (he : x.enabled = false) (hs : x.state = .off) (hc : x.count = 0)
    (hw : x.window = none) : Slot.Sound x := by
  simp [Slot.Sound, he, hs, hc, hw, Slot.windowLength]

/-- An enabled slot with an empty window is in ACCUM, or in IDLE where its trigger is GATED. -/
theorem slotSound_empty {x : Slot} (he : x.enabled = true)
    (hs : x.state = .accum ∨ x.trigger = .gated ∧ x.state = .idle) (hc : x.count = 0)
    (hw : x.window = none) : Slot.Sound x := by
  rcases hs with hs | ⟨ht, hs⟩
  · simp [Slot.Sound, he, hs, hc, hw, Slot.windowLength]
  · simp [Slot.Sound, he, ht, hs, hc, hw, Slot.windowLength]

theorem restState_cases (t : SlotTrigger) :
    t.restState = .accum ∨ t = .gated ∧ t.restState = .idle := by
  cases t
  · exact .inl rfl
  · exact .inr ⟨rfl, rfl⟩

theorem Slot.Sound.enabled_of_accum {x : Slot} (h : Slot.Sound x) (ha : x.state = .accum) :
    x.enabled = true := by
  obtain ⟨hoff, _⟩ := h
  cases he : x.enabled
  · rw [hoff.mp he] at ha; cases ha
  · rfl

theorem Slot.Sound.setInbox {x : Slot} (h : Slot.Sound x) (items : List StreamItem) :
    Slot.Sound { x with inbox := items } := h

theorem Slot.Sound.setStarts {x : Slot} (h : Slot.Sound x) (n : Nat) :
    Slot.Sound { x with starts := n } := h

theorem takeSample_sound {x : Slot} (h : Slot.Sound x) (k : Fin 16) (v : Int) (i now : Nat) :
    Slot.Sound (x.takeSample k v i now).1 := by
  simp only [Slot.takeSample]
  split
  · next ha =>
    have he := h.enabled_of_accum ha
    split
    · next hlt =>
      exact ⟨by simp [he, ha], fun _ _ => ha, fun hn => absurd ha hn, by simp, hlt⟩
    · exact slotSound_empty he (restState_cases _) rfl rfl
  · exact h
  · exact h

theorem afterMark_sound {x : Slot} (h : Slot.Sound x) : Slot.Sound x.afterMark := by
  simp only [Slot.afterMark]
  split
  · next hb =>
    simp only [Slot.breaks, Bool.and_eq_true, decide_eq_true_eq] at hb
    exact slotSound_empty (h.enabled_of_accum hb.1) (restState_cases _) rfl rfl
  · exact h

theorem afterStart_sound {x : Slot} (h : Slot.Sound x) : Slot.Sound x.afterStart := by
  simp only [Slot.afterStart]
  split
  · next ht =>
    simp only [Slot.takesStart, Bool.and_eq_true] at ht
    exact slotSound_empty ht.1.1 (.inl rfl) rfl rfl
  · exact h

theorem slotRestarted_sound (x : Slot) : Slot.Sound x.restarted := by
  simp only [Slot.restarted]
  split
  · next he => exact slotSound_empty he (restState_cases _) rfl rfl
  · next he => exact slotSound_off (by simpa using he) rfl rfl rfl

theorem Reads.of_eq_some {α : Type} {read : Option α} {good : Prop} {value x : α}
    (h : Reads read good value) (hx : read = some x) : good ∧ x = value := by
  by_cases hg : good
  · rw [h.of_good hg] at hx
    exact ⟨hg, (Option.some.inj hx).symm⟩
  · rw [h.of_bad hg] at hx
    cases hx

/-- The window length of an enabled slot is bound (R24, R134 check 5), and a disabled one holds no
sample. -/
theorem slotWrite_sound {x y : Slot} {mask : Nat} {v : List Byte} (h : Slot.Sound x)
    (hb : x.enabled = true → maskBound .slot mask = false) (hy : x.write mask v = some y) :
    Slot.Sound y := by
  obtain ⟨_, rfl⟩ := (reads_slotWrite x mask v).of_eq_some hy
  obtain ⟨hoff, hcont, hcount, hwindow, hlt⟩ := h
  cases he : x.enabled
  · have hs := hoff.mp he
    have hc : x.count = 0 := hcount (by rw [hs]; decide)
    exact slotSound_off he hs hc (hwindow.mpr hc)
  · have hbound := fun {k} => testBit_of_maskBound (hb he) (k := k)
    refine ⟨hoff, fun _ ht => hcont he ?_, hcount, hwindow, ?_⟩
    · simpa [slotFields, hbound (k := 3) rfl] using ht
    · simpa [slotFields, Slot.windowLength, hbound (k := 2) rfl] using hlt

/-! ### What keeps a rule sound (R51, R52) -/

/-- A rule that has just begun is in CLEAR, or OFF where it is disabled. -/
theorem ruleSound_begun {r : Rule} (hp : 1 ≤ r.persistence ∧ r.persistence ≤ 255)
    (hs : r.state = if r.enabled = true then .clear else .off) (hc : r.runCount = 0) :
    Rule.Sound r := by
  cases he : r.enabled <;> simp [Rule.Sound, he, hs, hc, hp]

/-- A step leads to a run count of 1 to 254 in PENDING and LEAVING, and of 0 in CLEAR and ACTIVE (R51, R52). -/
theorem stepState_sound (r : Rule) (qualifies : Bool) (hs : r.state ≠ .off)
    (hp : r.persistence ≤ 255) :
    (r.stepState qualifies).1 ≠ .off
      ∧ ((r.stepState qualifies).2.1 = 0 ↔
        (r.stepState qualifies).1 ≠ .pending ∧ (r.stepState qualifies).1 ≠ .leaving)
      ∧ (r.stepState qualifies).2.1 ≤ 254 := by
  cases hst : r.state
  case off => exact absurd hst hs
  all_goals
    cases qualifies
    · simp [Rule.stepState, hst]
    · simp only [Rule.stepState, hst]
      split <;> simp
      omega

theorem Rule.Sound.setInbox {r : Rule} (h : Rule.Sound r) (items : List StreamItem) :
    Rule.Sound { r with inbox := items } := h

theorem stepValue_sound {r : Rule} (h : Rule.Sound r) (he : r.enabled = true) (v : Int) :
    Rule.Sound (r.stepValue v).1 := by
  obtain ⟨hoff, hrun, hle, hpers⟩ := h
  simp only [Rule.stepValue]
  split
  · obtain ⟨hs, hr, hl⟩ := stepState_sound r (r.qualifies v (r.previous.getD 0))
      (fun hs => by simp [hoff.mpr hs] at he) hpers.2
    exact ⟨by simp [he, hs], hr, hl, hpers⟩
  · exact ⟨hoff, hrun, hle, hpers⟩

theorem ruleAfterMark_sound {r : Rule} (h : Rule.Sound r) : Rule.Sound r.afterMark := by
  obtain ⟨hoff, _, _, hpers⟩ := h
  refine ⟨hoff.trans ?_, ?_, Nat.zero_le _, hpers⟩ <;>
    cases hs : r.state <;> simp [Rule.afterMark, RuleState.afterMark, hs]

theorem ruleRestarted_sound {r : Rule} (h : Rule.Sound r) : Rule.Sound r.restarted := by
  obtain ⟨_, _, _, hpers⟩ := h
  rw [ruleRestarted_eq]
  exact ruleSound_begun hpers rfl rfl

/-- A persistence that is written is 1 to 255 (R42). -/
theorem ruleWrite_sound {r y : Rule} {mask : Nat} {v : List Byte} (h : Rule.Sound r)
    (hy : r.write mask v = some y) : Rule.Sound y := by
  obtain ⟨⟨_, _, _, _, _, hpers, _⟩, rfl⟩ := (reads_ruleWrite r mask v).of_eq_some hy
  obtain ⟨hoff, hrun, hle, hold⟩ := h
  refine ⟨hoff, hrun, hle, ?_⟩
  simp only [ruleFields]
  split
  · next hk => exact ⟨hpers hk, Nat.le_of_lt_succ (byteAt_lt v 17)⟩
  · exact hold

end Sys2Proof

/-! ### Commands that reach neither a slot nor a rule -/

namespace Sys2Proof.Machine

/-- The two tables of the machines that O7 is about. -/
def State.machines (s : State) : Table Slot 16 × Table Rule 32 := (s.slots, s.rules)

@[simp] theorem State.machines_setPort (s : State) (p : PortId) (x : Port) :
    (s.setPort p x).machines = s.machines := by
  simp [State.machines]

@[simp] theorem State.machines_chargeMalformed (s : State) (p : PortId) :
    (s.chargeMalformed p).machines = s.machines :=
  State.machines_setPort _ _ _

theorem State.machines_unseeNodes (s : State) : s.unseeNodes.machines = s.machines := rfl

@[simp] theorem State.machines_enterUp (s : State) (p : PortId) :
    (s.enterUp p).machines = s.machines := by
  rw [State.enterUp, State.tellLinkChange_eq]
  exact State.machines_setPort _ _ _

@[simp] theorem State.machines_leaveUp (s : State) (p : PortId) :
    (s.leaveUp p).machines = s.machines := by
  rw [State.leaveUp, State.tellLinkChange_eq]
  exact State.machines_setPort _ _ _

@[simp] theorem State.machines_receiveFlow (s : State) (p : PortId) (paused : Bool) :
    (s.receiveFlow p paused).machines = s.machines := by
  simp only [State.receiveFlow]
  split
  · simp
  · split <;> simp
  · rfl

@[simp] theorem State.machines_placeOb (s : State) (bytes : List Byte) :
    (s.placeOb bytes).machines = s.machines := by
  rcases s.placeOb_cases bytes with ⟨_, h⟩ | ⟨_, h⟩ <;> rw [h] <;> rfl

@[simp] theorem State.machines_arriveRequest (s : State) (payload : List Byte) :
    (s.arriveRequest payload).machines = s.machines := by
  rcases s.arriveRequest_cases payload with ⟨_, h⟩ | ⟨_, _, h⟩ | ⟨_, _, h⟩ <;> rw [h] <;> rfl

@[simp] theorem State.machines_takeFrame (s : State) (p : PortId) (bytes : List Byte) :
    (s.takeFrame p bytes).machines = s.machines := by
  have hand : ∀ u : State, (u.handOn p bytes).machines = u.machines := by
    intro u
    cases p
    · simp only [State.handOn]; split <;> rfl
    · simp only [State.handOn]; split_ifs <;> simp
  simp only [State.takeFrame]
  split_ifs <;> simp [hand]

@[simp] theorem State.machines_offerFw (s : State) (bytes : List Byte) :
    (s.offerFw bytes).machines = s.machines := by
  rcases s.offerFw_cases bytes with ⟨_, h⟩ | ⟨_, _, h⟩ | ⟨_, _, h⟩ <;> rw [h] <;> rfl

@[simp] theorem State.machines_closeReduced (s : State) (records : List OutputRecord) :
    (s.closeReduced records).machines = s.machines := by
  rcases s.closeReduced_cases records with ⟨_, h⟩ | ⟨_, h⟩ <;> rw [h] <;> rfl

@[simp] theorem State.machines_assemble (s : State) (r : OutputRecord) :
    (s.assemble r).machines = s.machines := by
  simp only [State.assemble]
  split_ifs
  · rfl
  · exact State.machines_closeReduced _ _
  · rfl
  · rfl

@[simp] theorem State.machines_ringTakesFreeze (s : State) (k : Fin 8) (r : Ring) (t : Trigger) :
    (s.ringTakesFreeze k r t).machines = s.machines := by
  simp only [State.ringTakesFreeze]
  split <;> rfl

@[simp] theorem State.machines_placeTerminator (s : State) :
    s.placeTerminator.machines = s.machines := by
  rcases s.placeTerminator_cases with h | ⟨_, _, _, _, _, h⟩ <;> rw [h]
  rfl

theorem State.machines_produceOne {s t : State} (h : s.produceOne = some t) :
    t.machines = s.machines := by
  rcases State.produceOne_cases h with rfl | ⟨_, _, _, _, _, _, rfl⟩ <;> rfl

theorem State.machines_examineEngine {s t : State} (h : s.examineEngine = some t) :
    t.machines = s.machines :=
  State.examineEngine_keeps (P := fun u => u.machines = s.machines)
    (fun u hu => u.machines_placeTerminator.trans hu)
    (fun _ _ hu h => (State.machines_produceOne h).trans hu) rfl h

@[simp] theorem State.machines_engineGranted (s : State) (f : ReadoutFrame) :
    (s.engineGranted f).machines = s.machines := by
  simp only [State.engineGranted]
  split
  · split <;> rfl
  · split <;> rfl
  · rfl

theorem State.machines_readoutLinkLost (s : State) : s.readoutLinkLost.machines = s.machines := by
  simp only [State.readoutLinkLost]
  split <;> rfl

theorem State.machines_abortReadout (s : State) (x : ReadoutRecord) :
    (s.abortReadout x).machines = s.machines :=
  State.machines_placeTerminator _

theorem State.machines_grant {s t : State} {c : Claimant} (h : s.grant c = some t) :
    t.machines = s.machines := by
  cases c with
  | mr => cases h; simp only [State.grantMr]; split <;> rfl
  | ev => cases h; rfl
  | fw => cases h; simp only [State.grantFw]; split <;> rfl
  | dt =>
    simp only [State.grant, State.grantDt] at h
    split at h
    · split at h
      · exact (State.machines_examineEngine h).trans (State.machines_engineGranted _ _)
      · exact (State.machines_examineEngine h).trans rfl
    · cases h; rfl

/-- What the tables of the machines alone decide is kept by a request where its execution keeps it: a
reply reaches no table. -/
theorem State.request_keeps {P : State → Prop} {s t : State} {code : Nat}
    {run : List Byte → State → Option Answer}
    (hp : ∀ {u v : State}, P u → v.machines = u.machines → P v) (hs : P s)
    (h : s.request code run = .next t)
    (hr : ∀ args status results u, run args s = some (status, results, u) → P u) : P t := by
  rcases State.request_next h with rfl | ⟨q, r, _, rfl⟩ | ⟨q, status, results, u, hu, rfl⟩
  · exact hs
  · rw [repliedOnly_eq]; exact hp hs rfl
  · rw [answered_eq]; exact hp (hr _ _ _ _ hu) rfl

theorem State.gather_keeps {P : State → Prop} {s t : State} {code : Nat} {blocks : List Block}
    {work : Block → State → State} {answer : State → Answer}
    (hp : ∀ {u v : State}, P u → v.machines = u.machines → P v) (hs : P s)
    (h : s.gather code blocks work answer = .next t) (hw : ∀ b, P (work b s))
    (ha : P (answer s).2.2) : P t := by
  rcases State.gather_next h with rfl | ⟨q, r, _, rfl⟩ | ⟨b, rfl⟩ | ⟨q, rfl⟩
  · exact hs
  · rw [repliedOnly_eq]; exact hp hs rfl
  · exact hp (hw b) rfl
  · rw [answered_eq]; exact hp ha rfl

theorem State.machines_request {s t : State} {code : Nat} {run : List Byte → State → Option Answer}
    (h : s.request code run = .next t)
    (hr : ∀ args status results u, run args s = some (status, results, u) → u.machines = s.machines) :
    t.machines = s.machines :=
  State.request_keeps (P := fun u => u.machines = s.machines) (fun hu hv => hv.trans hu) rfl h hr

/-- The same of a request that is answered without results, at the entry an index names. -/
theorem State.machines_atIndex {n : Nat} {s u : State} {op : Fin n → Status × State}
    {i : Option (Fin n)} {status : Status} {results : List Byte}
    (h : some (bare (atIndex i s op)) = some (status, results, u))
    (ho : ∀ k, (op k).2.machines = s.machines) : u.machines = s.machines := by
  cases h
  exact atIndex_keeps (P := fun v => v.machines = s.machines) rfl ho

theorem State.machines_releaseHalf (s : State) (k : Fin 8) (h : HalfId) :
    (s.releaseHalf k h).2.machines = s.machines := by
  simp only [State.releaseHalf]
  split_ifs
  · rfl
  · rfl
  · split <;> rfl

theorem State.machines_flushRing (s : State) (k : Fin 8) :
    (s.flushRing k).2.machines = s.machines := by
  simp only [State.flushRing]
  split_ifs
  · rfl
  · rfl
  · split
    · split <;> rfl
    · rfl

theorem State.machines_freezeRing (s : State) (k : Fin 8) :
    (s.freezeRing k).2.machines = s.machines := by
  simp only [State.freezeRing]
  split_ifs
  · rfl
  · rfl
  · rfl
  · exact State.machines_ringTakesFreeze _ _ _ _

theorem State.machines_rearmRing (s : State) (k : Fin 8) :
    (s.rearmRing k).2.machines = s.machines := by
  simp only [State.rearmRing]
  split_ifs
  · rfl
  · rfl
  · split <;> rfl

/-- The commands of the classifier, the slots and the rules, and the requests that reach those tables. -/
def reachesMachines : Instr → Bool
  | .hardReset _ _ => true
  | .sampleFrameTaken => true
  | .fPortLeavingUpClassifier => true
  | .slotTakeSample _ => true
  | .slotTakeGapMark _ => true
  | .slotStart _ => true
  | .ruleTakeValue _ => true
  | .ruleTakeGapMark _ => true
  | .writeEntry => true
  | .enable => true
  | .disable => true
  | .startSlot => true
  | .restart => true
  | _ => false

/-- Every other command leaves both tables as they are. -/
theorem exec_keeps_machines {i : Instr} {s t : State} (hi : reachesMachines i = false)
    (h : exec i s = .next t) : t.machines = s.machines := by
  cases i with
  | hardReset | sampleFrameTaken | fPortLeavingUpClassifier | slotTakeSample | slotTakeGapMark
    | slotStart | ruleTakeValue | ruleTakeGapMark | writeEntry | enable | disable | startSlot
    | restart => cases hi
  | initialisationComplete =>
    simp only [exec, execInitialisationComplete] at h
    split at h <;> cases h <;> rfl
  | receiveTrain p heard =>
    simp only [exec, execReceiveTrain] at h
    split at h
    · cases h; rfl
    · split at h <;> cases h <;> simp
    · split at h <;> cases h <;> simp
  | undecodableSymbol p =>
    simp only [exec, execUndecodableSymbol] at h
    split at h <;> cases h <;> simp
  | receiveHold p => cases h; simp
  | receiveGo p => cases h; simp
  | lossOfLock p =>
    simp only [exec, execLossOfLock] at h
    split at h <;> cases h <;> simp
  | frameReceived p bytes =>
    simp only [exec, execFrameReceived] at h
    split at h <;> cases h <;> simp
  | holdSentChange p =>
    simp only [exec, execHoldSentChange] at h
    split at h <;> cases h <;> simp
  | flowSymbolRepeat p =>
    simp only [exec, execFlowSymbolRepeat] at h
    split at h <;> cases h <;> simp
  | fwPlace way =>
    cases way <;> simp only [exec, execFwPlace] at h
    · split at h <;> cases h
      · exact (State.machines_offerFw _ _).trans rfl
      · rfl
    · split at h
      · split at h <;> cases h
        · exact (State.machines_offerFw _ _).trans rfl
        · rfl
      · cases h; rfl
  | ringTakeItem k =>
    simp only [exec, execRingTakeItem] at h
    split at h
    · cases h; rfl
    · cases h; rfl
    · obtain ⟨_, rfl⟩ := State.ringTakesWords_eq_some (captureOutcome_eq_next.mp h)
      rfl
  | ringTakeGapMark k =>
    simp only [exec, execRingTakeGapMark] at h
    split at h <;> cases h <;> rfl
  | ringFreeze k rule =>
    simp only [exec, execRingFreeze] at h
    split at h <;> cases h
    · exact State.machines_ringTakesFreeze _ _ _ _
    · rfl
  | assemblerTakeRecord k =>
    simp only [exec, execAssemblerTakeRecord] at h
    split at h <;> cases h
    · exact (State.machines_assemble _ _).trans rfl
    · rfl
  | reducedHoldExpiry =>
    simp only [exec, execReducedHoldExpiry] at h
    split at h <;> cases h
    · exact State.machines_closeReduced _ _
    · rfl
  | eventEnqueue r =>
    simp only [exec, execEventEnqueue] at h
    split at h <;> cases h <;> rfl
  | retransmitTimeout =>
    simp only [exec, execRetransmitTimeout] at h
    split at h <;> cases h <;> rfl
  | deliverySuspend =>
    simp only [exec, execDeliverySuspend] at h
    split at h <;> cases h <;> rfl
  | deliveryResume =>
    simp only [exec, execDeliveryResume] at h
    split at h <;> cases h <;> rfl
  | arbiterGrant =>
    simp only [exec, execArbiterGrant] at h
    split at h
    · split at h
      · exact State.machines_grant (captureOutcome_eq_next.mp h)
      · cases h; rfl
    · cases h; rfl
  | readoutFrameProduce => exact State.machines_produceOne (captureOutcome_eq_next.mp h)
  | terminatingFramePlace => cases h; simp
  | obSend =>
    simp only [exec, execObSend] at h
    split at h
    · split at h <;> cases h <;> rfl
    · cases h; rfl
  | cPortLeavingUpEgress =>
    simp only [exec, execCPortLeavingUpEgress] at h
    split at h <;> cases h
    · exact (State.machines_readoutLinkLost _).trans rfl
    · rfl
  | cPortComingUpEgress =>
    simp only [exec, execCPortComingUpEgress] at h
    split at h
    · split at h
      · exact (State.machines_examineEngine (captureOutcome_eq_next.mp h)).trans rfl
      · cases h; rfl
    · cases h; rfl
  | fPortLeavingUpEgress =>
    simp only [exec, execFPortLeavingUpEgress] at h
    split at h <;> cases h <;> rfl
  | ident =>
    simp only [exec, execIdent] at h
    exact State.machines_request h fun _ _ _ _ hu => by cases hu; rfl
  | readEntry =>
    simp only [exec, execReadEntry] at h
    refine State.machines_request h fun args _ _ u hu => ?_
    split at hu <;> cases hu <;> rfl
  | readStatus =>
    simp only [exec, execReadStatus] at h
    exact State.gather_keeps (P := fun u => u.machines = s.machines) (fun hu hv => hv.trans hu) rfl h
      (fun b => by cases b <;> rfl) rfl
  | clearCounters =>
    simp only [exec, execClearCounters] at h
    exact State.gather_keeps (P := fun u => u.machines = s.machines) (fun hu hv => hv.trans hu) rfl h
      (fun b => by cases b <;> rfl) rfl
  | setTime =>
    simp only [exec, execSetTime] at h
    exact State.machines_request h fun _ _ _ _ hu => by cases hu; rfl
  | readRing =>
    simp only [exec, execReadRing] at h
    refine State.machines_request h fun args _ _ u hu => ?_
    split at hu
    · simp only [State.readRing] at hu
      split at hu
      · obtain ⟨v, hv, heq⟩ := Option.map_eq_some_iff.mp hu
        cases heq
        exact (State.machines_examineEngine hv).trans rfl
      · cases hu; rfl
    · cases hu; rfl
  | abortRead =>
    simp only [exec, execAbortRead] at h
    refine State.machines_request h fun args _ _ u hu => ?_
    split at hu <;> cases hu
    · exact State.machines_abortReadout _ _
    · rfl
  | releaseHalf =>
    simp only [exec, execReleaseHalf] at h
    refine State.machines_request h fun args _ _ u hu => ?_
    split at hu <;> cases hu
    · exact State.machines_releaseHalf _ _ _
    · rfl
  | flushRing =>
    simp only [exec, execFlushRing] at h
    exact State.machines_request h fun _ _ _ _ hu => State.machines_atIndex hu s.machines_flushRing
  | freezeRing =>
    simp only [exec, execFreezeRing] at h
    exact State.machines_request h fun _ _ _ _ hu => State.machines_atIndex hu s.machines_freezeRing
  | rearmRing =>
    simp only [exec, execRearmRing] at h
    exact State.machines_request h fun _ _ _ _ hu => State.machines_atIndex hu s.machines_rearmRing
  | eventAck =>
    simp only [exec, execEventAck] at h
    refine State.machines_request h fun args _ _ u hu => ?_
    split at hu <;> cases hu <;> rfl
  | eventResync =>
    simp only [exec, execEventResync] at h
    refine State.machines_request h fun args _ _ u hu => ?_
    split at hu <;> cases hu <;> rfl
  | unknownCode =>
    simp only [exec, execUnknownCode] at h
    split at h
    · split at h
      · cases h; rfl
      · rcases State.serve_cases (captureOutcome_eq_next.mp h) with ⟨r, _, rfl⟩ | ⟨_, _, u, hu, rfl⟩
        · rw [repliedOnly_eq]; rfl
        · cases hu; rw [answered_eq]; rfl
    · cases h; rfl
  | frameSendComplete p =>
    simp only [exec, execFrameSendComplete] at h
    split at h <;> cases h <;> simp
  | requestTooShort =>
    simp only [exec, execRequestTooShort] at h
    split at h
    · split at h <;> cases h
      · exact State.machines_chargeMalformed s .c
      · rfl
    · cases h; rfl

end Sys2Proof.Machine

/-! ### The commands that reach them -/

namespace Sys2Proof

open Sys2Proof.Machine

/-- The invariants of the slots and of the rules together. -/
structure MachinesSound (s : State) : Prop where
  slots : SlotsSound s
  rules : RulesSound s

theorem MachinesSound.of_machines {s t : State} (hs : MachinesSound s) (h : t.machines = s.machines) :
    MachinesSound t := by
  obtain ⟨hslots, hrules⟩ := Prod.mk.inj h
  exact ⟨fun k => hslots ▸ hs.slots k, fun k => hrules ▸ hs.rules k⟩

section
variable {s t : State} (hs : MachinesSound s)
include hs

theorem MachinesSound.setSlot {k : Fin 16} {x : Slot} (hx : Slot.Sound x) :
    MachinesSound (s.setSlot k x) :=
  ⟨Table.forall_get_set hs.slots hx, hs.rules⟩

theorem MachinesSound.setRule {k : Fin 32} {r : Rule} (hr : Rule.Sound r) :
    MachinesSound (s.setRule k r) :=
  ⟨hs.slots, Table.forall_get_set hs.rules hr⟩

theorem MachinesSound.setInbox (items : List ClassifierItem) : MachinesSound (s.setInbox items) :=
  hs.of_machines rfl

/-- What is in flight to a slot or a rule is no part of its soundness. -/
theorem MachinesSound.of_onlyOffered (h : OnlyOffered s t) : MachinesSound t := by
  refine ⟨fun k => ?_, fun k => ?_⟩
  · rw [h.slots k]; exact hs.slots k
  · rw [h.rules k]; exact hs.rules k

theorem MachinesSound.takeSampleFrame (bytes : List Byte) : MachinesSound (s.takeSampleFrame bytes) := by
  simp only [State.takeSampleFrame]
  split
  · next f n _ _ =>
    split_ifs
    · exact hs.of_machines (s.machines_chargeMalformed .f)
    · exact hs.of_machines rfl
    · have htracked : MachinesSound (s.tracked n f.seq) := hs.of_machines rfl
      have h := htracked.of_onlyOffered (processed_onlyOffered s n f)
      rw [handCandidate_eq]
      exact h.of_machines rfl
  · exact hs.of_machines (s.machines_chargeMalformed .f)

theorem MachinesSound.slotTakesSample (k : Fin 16) {x : Slot} (hx : Slot.Sound x) (v : Int) (i : Nat) :
    MachinesSound (s.slotTakesSample k x v i) := by
  have hy := takeSample_sound hx k v i s.timebase
  simp only [State.slotTakesSample]
  split
  · next y he => rw [he] at hy; exact hs.setSlot hy
  · next y r he =>
    rw [he] at hy
    have h := (hs.setSlot (k := k) hy).of_onlyOffered (State.offerNext_onlyOffered _ k (.record r))
    simp only [State.deliverOutput]
    split
    · exact h.of_machines rfl
    · exact h

theorem MachinesSound.slotTakesMark (k : Fin 16) {x : Slot} (hx : Slot.Sound x) :
    MachinesSound (s.slotTakesMark k x) := by
  have hy := hs.setSlot (k := k) (afterMark_sound hx)
  simp only [State.slotTakesMark]
  split
  · exact hs.setSlot hx
  · refine MachinesSound.of_onlyOffered ?_ (State.offerNext_onlyOffered _ k .mark)
    split
    · exact hy.of_machines rfl
    · exact hy

theorem MachinesSound.sendFreeze (k : Fin 32) (g : Option (Fin 8)) : MachinesSound (s.sendFreeze k g) := by
  cases g <;> exact hs.of_machines rfl

theorem MachinesSound.sendStart (j : Option (Fin 16)) : MachinesSound (s.sendStart j) := by
  cases j with
  | none => exact hs
  | some j => exact hs.setSlot ((hs.slots j).setStarts _)

theorem MachinesSound.ruleTakesValue (k : Fin 32) {r : Rule} (hr : Rule.Sound r) (v : Int) (i : Nat) :
    MachinesSound (s.ruleTakesValue k r v i) := by
  simp only [State.ruleTakesValue]
  split
  · next he =>
    have hy := stepValue_sound hr he v
    split
    · next y heq => rw [heq] at hy; exact hs.setRule hy
    · next y heq =>
      rw [heq] at hy
      have hset : MachinesSound (s.setRule k
        { y with asserts := bump32 y.asserts, lastAssert := some s.timebase }) := hs.setRule hy
      simp only [State.ruleAsserts]
      refine MachinesSound.sendStart (MachinesSound.sendFreeze ?_ _ _) _
      split
      · exact hset.of_machines rfl
      · exact hset
    · next y heq =>
      rw [heq] at hy
      have hset := hs.setRule (k := k) hy
      simp only [State.ruleReleases]
      split
      · exact hset.of_machines rfl
      · exact hset
  · exact hs.setRule hr

theorem MachinesSound.writeEntry (x : TableId) (i mask : Nat) (v : List Byte) :
    MachinesSound (s.writeEntry x i mask v).2 := by
  cases x with
  | channel =>
    exact atIndex_keeps hs fun c => writeChecked_keeps hs fun _ _ _ _ => hs.of_machines rfl
  | node => exact hs
  | slot =>
    refine atIndex_keeps hs fun k => writeChecked_keeps hs fun y hy _ hb => hs.setSlot ?_
    rw [Slot.rewritten_eq]
    have h := slotWrite_sound (hs.slots k) hb hy
    exact h
  | rule =>
    refine atIndex_keeps hs fun k => writeChecked_keeps hs fun y hy _ _ => hs.setRule ?_
    rw [Rule.rewritten_eq]
    have h := ruleWrite_sound (hs.rules k) hy
    exact h
  | ring =>
    exact atIndex_keeps hs fun k => writeChecked_keeps hs fun _ _ _ _ => hs.of_machines rfl
  | global =>
    simp only [State.writeEntry]
    split
    · exact writeChecked_keeps hs fun _ _ _ _ => hs.of_machines rfl
    · exact hs

theorem MachinesSound.enableEntry (x : TableId) (i : Nat) : MachinesSound (s.enableEntry x i).2 := by
  cases x with
  | channel =>
    refine atIndex_keeps hs fun c => ?_
    simp only [State.enableChannel]
    split_ifs
    · exact hs
    · exact hs
    · exact hs
    · have hpass := hs.of_onlyOffered (s.passBy_onlyOffered fun src => decide (src = .channel c))
      exact hpass.of_machines rfl
  | node => exact hs
  | slot =>
    refine atIndex_keeps hs fun k => ?_
    simp only [State.enableSlot]
    split_ifs
    · exact hs
    · exact hs
    · exact hs
    · exact (hs.of_onlyOffered (State.passBy_onlyOffered s _)).setSlot
        (slotSound_empty rfl (restState_cases _) rfl rfl)
  | rule =>
    refine atIndex_keeps hs fun k => ?_
    obtain ⟨_, _, _, hpers⟩ := hs.rules k
    simp only [State.enableRule]
    split_ifs
    any_goals exact hs
    exact hs.setRule (ruleSound_begun hpers rfl rfl)
  | ring =>
    refine atIndex_keeps hs fun k => ?_
    simp only [State.enableRing]
    split_ifs <;> exact hs.of_machines rfl
  | global => exact hs

theorem MachinesSound.disableEntry (x : TableId) (i : Nat) : MachinesSound (s.disableEntry x i).2 := by
  cases x with
  | channel =>
    refine atIndex_keeps hs fun c => ?_
    simp only [State.disableChannel]
    split_ifs <;> exact hs.of_machines rfl
  | node => exact hs
  | slot =>
    refine atIndex_keeps hs fun k => ?_
    simp only [State.disableSlot]
    split_ifs
    · exact hs
    · exact hs
    · exact hs.setSlot (slotSound_off rfl rfl rfl rfl)
  | rule =>
    refine atIndex_keeps hs fun k => ?_
    obtain ⟨_, _, _, hpers⟩ := hs.rules k
    simp only [State.disableRule]
    split_ifs
    · exact hs
    · exact hs.setRule (ruleSound_begun hpers rfl rfl)
  | ring =>
    refine atIndex_keeps hs fun k => ?_
    simp only [State.disableRing]
    split_ifs <;> exact hs.of_machines rfl
  | global => exact hs

theorem MachinesSound.startSlot (k : Fin 16) : MachinesSound (s.startSlot k).2 := by
  simp only [State.startSlot]
  split
  · exact hs.setSlot (afterStart_sound (hs.slots k))
  · exact hs

theorem MachinesSound.restartShare (b : Block) : MachinesSound (State.restartShare b s) := by
  cases b with
  | reduction => exact ⟨Table.forall_get_map hs.slots fun _ _ => slotRestarted_sound _, hs.rules⟩
  | watch => exact ⟨hs.slots, Table.forall_get_map hs.rules fun _ h => ruleRestarted_sound h⟩
  | classifier | capture | events | fPort | cPort | readout | egress => exact hs.of_machines rfl

theorem MachinesSound.exec {i : Instr} (h : exec i s = .next t) : MachinesSound t := by
  by_cases hi : reachesMachines i = false
  · exact hs.of_machines (exec_keeps_machines hi h)
  cases i with
  | hardReset cause straps =>
    simp only [Machine.exec, execHardReset] at h
    split at h <;> cases h
    · exact ⟨slotsSound_resetWith straps, rulesSound_resetWith straps⟩
    · exact hs
  | sampleFrameTaken =>
    simp only [Machine.exec, execSampleFrameTaken] at h
    split at h <;> cases h
    · exact (hs.setInbox _).takeSampleFrame _
    · exact hs
  | fPortLeavingUpClassifier =>
    simp only [Machine.exec, execFPortLeavingUpClassifier] at h
    split at h <;> obtain rfl := Host.Outcome.next.inj h
    · next items _ =>
      have hpass := (hs.setInbox items).of_onlyOffered (State.passBy_onlyOffered _ Source.isChannel)
      have hmarks := hpass.of_onlyOffered (State.placeMarks_onlyOffered _ fun _ => true)
      exact hmarks.of_machines (State.machines_unseeNodes _)
    · exact hs
  | slotTakeSample k =>
    simp only [Machine.exec, execSlotTakeSample] at h
    split at h <;> cases h
    · exact hs.slotTakesSample k ((hs.slots k).setInbox _) _ _
    · exact hs
  | slotTakeGapMark k =>
    simp only [Machine.exec, execSlotTakeGapMark] at h
    split at h <;> cases h
    · exact hs.slotTakesMark k ((hs.slots k).setInbox _)
    · exact hs
  | slotStart k =>
    simp only [Machine.exec, execSlotStart] at h
    split at h <;> cases h
    · exact hs
    · exact hs.setSlot (afterStart_sound ((hs.slots k).setStarts _))
  | ruleTakeValue k =>
    simp only [Machine.exec, execRuleTakeValue] at h
    split at h
    · cases h; exact hs
    · split at h <;> cases h
      · exact hs.ruleTakesValue k ((hs.rules k).setInbox _) _ _
      · exact hs
  | ruleTakeGapMark k =>
    simp only [Machine.exec, execRuleTakeGapMark] at h
    split at h <;> cases h
    · refine hs.setRule ?_
      split
      · exact ruleAfterMark_sound ((hs.rules k).setInbox _)
      · exact (hs.rules k).setInbox _
    · exact hs
  | writeEntry =>
    simp only [Machine.exec, execWriteEntry] at h
    refine State.request_keeps MachinesSound.of_machines hs h fun args _ _ u hu => ?_
    split at hu <;> cases hu
    · exact hs.writeEntry _ _ _ _
    · exact hs
  | enable =>
    simp only [Machine.exec, execEnable] at h
    refine State.request_keeps MachinesSound.of_machines hs h fun args _ _ u hu => ?_
    split at hu <;> cases hu
    · exact hs.enableEntry _ _
    · exact hs
  | disable =>
    simp only [Machine.exec, execDisable] at h
    refine State.request_keeps MachinesSound.of_machines hs h fun args _ _ u hu => ?_
    split at hu <;> cases hu
    · exact hs.disableEntry _ _
    · exact hs
  | startSlot =>
    simp only [Machine.exec, execStartSlot] at h
    refine State.request_keeps MachinesSound.of_machines hs h fun args _ _ u hu => ?_
    cases hu
    exact atIndex_keeps hs hs.startSlot
  | restart =>
    simp only [Machine.exec, execRestart] at h
    exact State.gather_keeps MachinesSound.of_machines hs h hs.restartShare
      ((hs.restartShare .events).of_machines rfl)
  | _ => exact absurd rfl hi

end

/-- Settles O7: the commands that reach a slot or a rule keep it sound, and the others leave both tables
as they are. -/
theorem slotsAndRulesStaySound : Obligations.SlotsAndRulesStaySound := by
  rintro s t ⟨hslots, hrules⟩ h
  have hs : MachinesSound s := ⟨hslots, hrules⟩
  suffices ht : MachinesSound t from ⟨ht.slots, ht.rules⟩
  simp only [step] at h
  split at h
  · cases h; exact hs.of_machines rfl
  · next c rest _ =>
    have hrest : MachinesSound { s with pending := rest } := hs.of_machines rfl
    exact hrest.exec h

end Sys2Proof

/-! ## Channels number the samples of a frame and offer them (O24) -/

namespace Sys2Proof

open Sys2Proof.Machine

/-! ### The value of a code (R2) -/

theorem sampleValue_signed_of_lt {code : Nat} (h : code < 8388608) : sampleValue .signed code = code :=
  if_pos h

theorem sampleValue_signed_of_ge {code : Nat} (h : 8388608 ≤ code) :
    sampleValue .signed code = (code : Int) - 16777216 :=
  if_neg (by omega)

/-! ### The samples that a channel makes of its entries (R14, R15) -/

/-- A channel that has taken some entries of a frame, in their order. -/
def Machine.Channel.took (c : Channel) (es : List SampleEntry) : Channel :=
  { c with
    sampleIndex := (c.sampleIndex + es.length) % 4294967296
    lastValue := match es.getLast? with
      | some e => some (sampleValue c.format e.code)
      | none => c.lastValue }

theorem channelTook_nil {c : Channel} (hi : c.sampleIndex < 4294967296) : c.took [] = c := by
  simp [Channel.took, Nat.mod_eq_of_lt hi]

theorem channelTook_append (c : Channel) (es es' : List SampleEntry) :
    c.took (es ++ es') = (c.took es).took es' := by
  have hi : (c.sampleIndex + (es ++ es').length) % 4294967296
      = ((c.sampleIndex + es.length) % 4294967296 + es'.length) % 4294967296 := by
    rw [List.length_append]; omega
  simp only [Channel.took, hi, List.getLast?_append]
  cases es'.getLast? <;> rfl

theorem samplesFrom_append (f : Format) {i : Nat} (hi : i < 4294967296) (es es' : List SampleEntry) :
    samplesFrom f i (es ++ es')
      = samplesFrom f i es ++ samplesFrom f ((i + es.length) % 4294967296) es' := by
  induction es generalizing i with
  | nil => simp [samplesFrom, Nat.mod_eq_of_lt hi]
  | cons e es ih =>
    have hlt : (i + 1) % 4294967296 < 4294967296 := Nat.mod_lt _ (by decide)
    have hidx : ((i + 1) % 4294967296 + es.length) % 4294967296
        = (i + (es.length + 1)) % 4294967296 := by omega
    simp only [List.cons_append, samplesFrom, ih hlt, List.length_cons, hidx]

/-- What the consumers of a channel are given of the entries that it takes. -/
def samplesOf (s : State) (taken : Fin 64 → List SampleEntry) (c : Fin 64) : List StreamItem :=
  samplesFrom (s.channel c).format (s.channel c).sampleIndex (taken c)

/-- Every channel has taken its entries, and its consumers have been given its samples. -/
structure SamplesTaken (s t : State) (taken : Fin 64 → List SampleEntry) : Prop where
  channels : ∀ c, t.channel c = (s.channel c).took (taken c)
  given : Given s t (samplesOf s taken)

/-- The indices of all channels are in range (R15). -/
def IndicesFit (s : State) : Prop := ∀ c, (s.channel c).sampleIndex < 4294967296

theorem samplesTaken_nothing {s : State} (hi : IndicesFit s) : SamplesTaken s s fun _ => [] :=
  ⟨fun c => (channelTook_nil (hi c)).symm, given_refl s⟩

theorem SamplesTaken.indicesFit {s t : State} {taken : Fin 64 → List SampleEntry}
    (h : SamplesTaken s t taken) : IndicesFit t := by
  intro c
  rw [h.channels]
  exact Nat.mod_lt _ (by decide)

theorem SamplesTaken.trans {s t u : State} {taken taken' : Fin 64 → List SampleEntry}
    (hi : IndicesFit s) (h : SamplesTaken s t taken) (h' : SamplesTaken t u taken') :
    SamplesTaken s u fun c => taken c ++ taken' c where
  channels c := by rw [h'.channels, h.channels, channelTook_append]
  given := (h.given.trans h'.given).congr fun c => by
    simp only [samplesOf, h.channels, samplesFrom_append _ (hi c), Channel.took]

theorem takenBy_append (s : State) (node : Nat) (c : Fin 64) (es es' : List SampleEntry) :
    takenBy s node c (es ++ es') = takenBy s node c es ++ takenBy s node c es' :=
  List.filter_append _ _

theorem takenBy_congr {s t : State} (h : OnlyOffered s t) (node : Nat) (c : Fin 64)
    (es : List SampleEntry) : takenBy t node c es = takenBy s node c es := by
  simp only [takenBy, h.matchChannel]

/-- One entry is taken by the channel with its key, if there is one, and by no other (R14). -/
theorem samplesTaken_takeEntry {s : State} (hi : IndicesFit s) (node : Nat) (e : SampleEntry) :
    SamplesTaken s (s.takeEntry node e).1 fun c => takenBy s node c [e] := by
  cases hm : s.matchChannel node e.input with
  | none =>
    have htaken : (fun c => takenBy s node c [e]) = fun _ => [] := by
      funext c; simp [takenBy, hm]
    simp only [State.takeEntry, hm, htaken]
    exact samplesTaken_nothing hi
  | some d =>
    have htaken : ∀ c, takenBy s node c [e] = if c = d then [e] else [] := by
      intro c; simp [takenBy, hm, List.filter_singleton, eq_comm (a := d)]
    have hgiven := given_offer (s.setChannel d ((s.channel d).took [e])) d
      (.sample (sampleValue (s.channel d).format e.code) (s.channel d).sampleIndex)
    simp only [State.takeEntry, hm]
    refine ⟨fun c => ?_, Given.congr ⟨hgiven.slots, hgiven.rules, hgiven.rings⟩ fun c => ?_⟩
    · rw [show (s.takeSample d e.code).channel c
        = if d = c then (s.channel d).took [e] else s.channel c from State.channel_setChannel s d c _,
        htaken]
      by_cases hc : c = d
      · subst hc; simp
      · simp [hc, Ne.symm hc, channelTook_nil (hi c)]
    · simp only [samplesOf, htaken]
      by_cases hc : c = d
      · subst hc; simp [samplesFrom]
      · simp [hc, samplesFrom]

/-- The entries of a frame, in their order (R13, R14). -/
theorem samplesTaken_takeEntries {s : State} (hi : IndicesFit s) (node : Nat) (es : List SampleEntry) :
    SamplesTaken s (s.takeEntries node es).1 fun c => takenBy s node c es := by
  induction es generalizing s with
  | nil => exact samplesTaken_nothing hi
  | cons e es ih =>
    have hone := samplesTaken_takeEntry hi node e
    have honly : OnlyOffered s (s.takeEntry node e).1 := State.takeEntries_onlyOffered s node [e]
    have h := hone.trans hi (ih hone.indicesFit)
    simp only [takenBy_congr honly, ← takenBy_append] at h
    exact h

/-! ### The gap marks of a frame (R7, R20, R22) -/

/-- Whether a frame of node `n` with sequence `q` marks a channel. -/
def Machine.State.gapMarks (s : State) (n : Fin 30) (q : Nat) (c : Fin 64) : Bool :=
  decide ((s.classifier.nodes.get n).gapSize q ≠ 0)
    && s.marks (fun x => decide (x.node = n.val + 1)) c

theorem trackNode_of_noGap {s : State} {n : Fin 30} {q : Nat}
    (h : (s.classifier.nodes.get n).gapSize q = 0) : s.trackNode n q = s.tracked n q := by
  simp [State.trackNode, State.tracked, h]
  rfl

theorem trackNode_of_gap {s : State} {n : Fin 30} {q : Nat}
    (h : (s.classifier.nodes.get n).gapSize q ≠ 0) :
    s.trackNode n q = (s.tracked n q).placeMarks fun x => decide (x.node = n.val + 1) := by
  simp only [State.trackNode, State.tracked, h, if_false]
  rfl

theorem marks_tracked {s : State} {n : Fin 30} {q : Nat}
    (h : (s.classifier.nodes.get n).gapSize q ≠ 0) (c : Fin 64) :
    (s.tracked n q).marks (fun x => decide (x.node = n.val + 1)) c = s.gapMarks n q c := by
  simp only [State.gapMarks, h, ne_eq, not_false_eq_true, decide_true, Bool.true_and]
  rfl

/-- The tracking of a node counts its marks in the channels, and nothing else there (R7, R22). -/
theorem channel_trackNode (s : State) (n : Fin 30) (q : Nat) (c : Fin 64) :
    (s.trackNode n q).channel c = { s.channel c with
      gapMarks := if s.gapMarks n q c = true then min ((s.channel c).gapMarks + 1) 65535
        else (s.channel c).gapMarks } := by
  by_cases h : (s.classifier.nodes.get n).gapSize q = 0
  · rw [trackNode_of_noGap h, if_neg (by simp [State.gapMarks, h])]
    rfl
  · rw [trackNode_of_gap h, channel_placeMarks, marks_tracked h]
    rfl

theorem given_trackNode (s : State) (n : Fin 30) (q : Nat) :
    Given s (s.trackNode n q) fun c => if s.gapMarks n q c = true then [.mark] else [] := by
  by_cases h : (s.classifier.nodes.get n).gapSize q = 0
  · have hg := given_refl (s.tracked n q)
    rw [trackNode_of_noGap h]
    exact Given.congr ⟨hg.slots, hg.rules, hg.rings⟩ fun c => by simp [State.gapMarks, h]
  · have hg := given_placeMarks (s.tracked n q) fun x => decide (x.node = n.val + 1)
    rw [trackNode_of_gap h]
    exact Given.congr ⟨hg.slots, hg.rules, hg.rings⟩ fun c => by rw [marks_tracked h]

theorem gapMarks_iff {s : State} {n : Fin 30} {q : Nat}
    (hs : ¬ IsStaleFrame (s.classifier.nodes.get n) q) (c : Fin 64) :
    s.gapMarks n q c = true ↔ RevealsGap (s.classifier.nodes.get n) q
      ∧ (s.channel c).enabled = true ∧ (s.channel c).node = n.val + 1 := by
  simp [State.gapMarks, State.marks, gapSize_eq_zero_iff hs]

/-! ### A frame that is processed -/

/-- What a processed frame leaves of the channels and gives to their consumers: the marks, and behind them
the samples of the entries that each channel takes. -/
structure FrameGiven (s u : State) (n : Fin 30) (f : SampleFrame) : Prop where
  channels : ∀ c, u.channel c = { (s.channel c).took (takenBy s (n.val + 1) c f.entries) with
    gapMarks := if s.gapMarks n f.seq c = true then min ((s.channel c).gapMarks + 1) 65535
      else (s.channel c).gapMarks }
  given : ChannelsGave s u fun c => (if s.gapMarks n f.seq c = true then [.mark] else [])
    ++ samplesOf s (fun c => takenBy s (n.val + 1) c f.entries) c

theorem frameGiven_processed {s : State} (hi : IndicesFit s) (n : Fin 30) (f : SampleFrame) :
    FrameGiven s (s.processed n f).1 n f := by
  have hchannel := channel_trackNode (s.passBy Source.isChannel) n f.seq
  have hfit : IndicesFit ((s.passBy Source.isChannel).trackNode n f.seq) := by
    intro c; rw [hchannel]; exact hi c
  have htaken : ∀ c, takenBy ((s.passBy Source.isChannel).trackNode n f.seq) (n.val + 1) c f.entries
      = takenBy s (n.val + 1) c f.entries :=
    fun c => takenBy_congr (trackNode_onlyOffered (s.passBy Source.isChannel) n f.seq) _ c _
  have h := samplesTaken_takeEntries hfit (n.val + 1) f.entries
  simp only [htaken] at h
  refine ⟨fun c => ?_, Given.channelsGave
    (((given_trackNode (s.passBy Source.isChannel) n f.seq).trans h.given).congr fun c => ?_)⟩
  · rw [State.processed, h.channels, hchannel]
    rfl
  · simp only [samplesOf, hchannel]
    rfl

/-- The hand-over of a candidate reaches neither channels nor consumers. -/
theorem FrameGiven.handCandidate {s u : State} {n : Fin 30} {f : SampleFrame} (h : FrameGiven s u n f)
    (kept : List SampleEntry) : FrameGiven s (u.handCandidate f kept) n f := by
  rw [handCandidate_eq]
  exact ⟨h.channels, h.given⟩

/-- Settles O24: the marks of the frame's gap come first and then its entries one by one, each taken by the
channel with its key. -/
theorem samplesAreNumberedAndOffered : Obligations.SamplesAreNumberedAndOffered := by
  refine ⟨fun code hcode => ?_, fun s bytes items f n marked hinbox hp hs hi hmarked => ?_⟩
  · have hlow := fun h => sampleValue_signed_of_lt (code := code) h
    have hhigh := fun h => sampleValue_signed_of_ge (code := code) h
    refine ⟨rfl, hlow, hhigh, ?_⟩
    by_cases h : code < 8388608
    · rw [hlow h]; omega
    · rw [hhigh (by omega)]; omega
  · have hgap : ∀ c, s.gapMarks n f.seq c = marked c := fun c =>
      Bool.eq_iff_iff.mpr ((gapMarks_iff hs c).trans (hmarked c).symm)
    obtain ⟨hchannels, hgiven⟩ := (frameGiven_processed (s := s.setInbox items) hi n f).handCandidate
      ((s.setInbox items).processed n f).2
    refine ⟨_, exec_sampleFrameTaken_processed hinbox hp hs, fun c => ?_, ?_⟩
    · rw [hchannels, ← hgap]
      rfl
    · simp only [← hgap]
      exact hgiven

end Sys2Proof

/-! ## Slots: samples, gap marks and STARTs (O29, O31, O32) -/

namespace Sys2Proof

open Sys2Proof.Machine

/-! ### One sample, one mark -/

theorem extended_of_empty {x : Slot} (h : x.window = none) (v : Int) (i : Nat) :
    x.extended v i = { sum := v, max := v, min := v, firstIndex := i } := by
  rw [Slot.extended, h, Window.first]

theorem windowAdd_eq (w : Window) (v : Int) :
    w.add v = { sum := w.sum + v, max := max w.max v, min := min w.min v,
                firstIndex := w.firstIndex } := by
  have hmax : max w.max v = if w.max < v then v else w.max := by split_ifs <;> omega
  have hmin : min w.min v = if v < w.min then v else w.min := by split_ifs <;> omega
  rw [Window.add, hmax, hmin]

theorem extended_of_some {x : Slot} {w : Window} (h : x.window = some w) (v : Int) (i : Nat) :
    x.extended v i = { sum := w.sum + v, max := max w.max v, min := min w.min v,
                       firstIndex := w.firstIndex } := by
  rw [← windowAdd_eq, Slot.extended, h]

theorem restState_eq (t : SlotTrigger) :
    t.restState = if t = .continuous then .accum else .idle := by
  cases t <;> rfl

/-- Rounding toward minus infinity is Euclidean division by a power of 2 (00 "Floor shift"). -/
theorem floorShift_eq (v : Int) (k : Nat) : floorShift v k = v / 2 ^ k :=
  Int.fdiv_eq_ediv_of_nonneg _ (by positivity)

theorem output_eq (w : Window) (mode : SlotMode) (e : Nat) :
    w.output mode e = if mode = .mean then .value (w.sum / 2 ^ e)
      else if mode = .enhance then .value (w.sum / 2 ^ (e / 2))
      else .peak w.max w.min := by
  cases mode <;> simp [Window.output, floorShift_eq]

section
variable {s : State} {k : Fin 16} {x : Slot} {v : Int} {i : Nat}

/-- Outside ACCUM a sample is only taken from the stream (R16, R35). -/
theorem slotTakesSample_idle (h : x.state = .idle ∨ x.state = .off) :
    s.slotTakesSample k x v i = s.setSlot k x := by
  rcases h with h | h <;> simp only [State.slotTakesSample, Slot.takeSample, h]

theorem slotTakesSample_below (ha : x.state = .accum) (hlt : x.count + 1 < 2 ^ x.exponent) :
    s.slotTakesSample k x v i
      = s.setSlot k { x with count := x.count + 1, window := some (x.extended v i) } := by
  have hlt : x.count + 1 < x.windowLength := hlt
  simp only [State.slotTakesSample, Slot.takeSample, ha, hlt, if_true]

theorem slotTakesSample_completes (ha : x.state = .accum) (hle : 2 ^ x.exponent ≤ x.count + 1) :
    s.slotTakesSample k x v i = (s.setSlot k x.afterOutput).deliverOutput k
      (x.outputRecord k (x.extended v i) s.timebase) x.toEgress := by
  have hlt : ¬ x.count + 1 < x.windowLength := Nat.not_lt.mpr hle
  simp only [State.slotTakesSample, Slot.takeSample, ha, hlt, if_false]

end

/-- What an offer of slot `k` reaches: rules and rings. -/
theorem offerNext_eq (s : State) (k : Fin 16) (item : StreamItem) :
    s.offerNext k item = { s with
      rules := (s.offerNext k item).rules, rings := (s.offerNext k item).rings } := by
  have h := (s.offerNext_onlyOffered k item).rest
  rw [State.slots_offerNext] at h
  exact h

/-- What an output reaches: the slot's consumers, and the assembler where the flag is set (R34). -/
theorem deliverOutput_eq (s : State) (k : Fin 16) (r : OutputRecord) (toEgress : Bool) :
    s.deliverOutput k r toEgress = { s with
      rules := (s.offerNext k (.record r)).rules
      rings := (s.offerNext k (.record r)).rings
      egress := { s.egress with
        records := s.egress.records ++ if toEgress = true then [r] else [] } } := by
  simp only [State.deliverOutput]
  rw [offerNext_eq]
  cases toEgress <;> simp

/-- The settings of the slots are no concern of their consumers. -/
theorem slotGave_setSlot {s : State} {k : Fin 16} {x : Slot} {item : StreamItem} {t : State}
    (hr : t.rules = ((s.setSlot k x).offerNext k item).rules)
    (hg : t.rings = ((s.setSlot k x).offerNext k item).rings) : SlotGave s t k item := by
  obtain ⟨hrules, hrings⟩ := (s.setSlot k x).offerNext_slotGave k item
  exact ⟨fun j => hr ▸ hrules j, fun j => hg ▸ hrings j⟩

/-- Settles O29: the three cases are those of the slot's state and count. -/
theorem slotTakesSample : Obligations.SlotTakesSample := by
  intro k s x v i items w hx hinbox hw
  have hexec : exec (.slotTakeSample k) s
      = .next (s.slotTakesSample k { x with inbox := items } v i) := by
    subst hx
    simp only [exec, execSlotTakeSample, hinbox]
  have hext : Slot.extended { x with inbox := items } v i = w := by
    change x.extended v i = w
    rw [hw]
    cases h : x.window with
    | none => exact extended_of_empty h v i
    | some u => exact extended_of_some h v i
  rw [hexec]
  refine ⟨fun h => ?_, fun ha hlt => ?_, fun ha hle => ?_⟩
  · exact congrArg Host.Outcome.next (slotTakesSample_idle h)
  · rw [← hext]
    exact congrArg Host.Outcome.next (slotTakesSample_below ha hlt)
  · have h := slotTakesSample_completes (s := s) (k := k) (x := { x with inbox := items }) (v := v)
      (i := i) ha hle
    rw [deliverOutput_eq, hext] at h
    refine ⟨_, _, congrArg Host.Outcome.next h, ?_, ?_, slotGave_setSlot rfl rfl, rfl, rfl⟩
    · rw [← output_eq]
      rfl
    · rw [← restState_eq]
      rfl

theorem breaks_iff (x : Slot) : x.breaks = true ↔ x.state = .accum ∧ 1 ≤ x.count := by
  simp [Slot.breaks, Nat.one_le_iff_ne_zero]

theorem afterMark_eq (x : Slot) : x.afterMark = if x.breaks = true then
      { x with
        state := if x.trigger = .continuous then .accum else .idle
        count := 0
        window := none
        brokenWindows := min (x.brokenWindows + 1) 4294967295
        afterGap := true }
    else { x with afterGap := true } := by
  rw [← restState_eq]
  rfl

theorem requestEvents_nothing (s : State) : s.requestEvents [] = s := by
  simp only [State.requestEvents, List.append_nil]

/-- A mark at a slot that is not OFF: the slot, its request if it breaks a window, and the mark passed on
(R38, R39, R40). -/
theorem slotTakesMark_eq {s : State} {k : Fin 16} {x : Slot} (h : x.state ≠ .off) :
    s.slotTakesMark k x = ((s.setSlot k x.afterMark).requestEvents
      (if x.breaks = true ∧ x.notifyBroken = true then [x.brokenRequest k s.timebase] else [])).offerNext
        k .mark := by
  simp only [State.slotTakesMark, h, if_false, Bool.and_eq_true]
  split
  · rfl
  · rw [requestEvents_nothing]

theorem exec_slotTakeGapMark {s : State} {k : Fin 16} {x : Slot} {items : List StreamItem}
    (hx : x = s.slots.get k) (hinbox : x.inbox = .mark :: items) :
    exec (.slotTakeGapMark k) s = .next (s.slotTakesMark k { x with inbox := items }) := by
  subst hx
  simp only [exec, execSlotTakeGapMark, hinbox]

/-- Settles O31: a mark breaks exactly what `Slot.breaks` says, and is passed on after the request. -/
theorem slotTakesGapMark : Obligations.SlotTakesGapMark := by
  refine ⟨fun k s items hinbox hoff => ?_, fun k s x items broken hx hinbox hoff hbroken => ?_⟩
  · rw [exec_slotTakeGapMark rfl hinbox]
    exact congrArg Host.Outcome.next (if_pos hoff)
  · have hbreaks : Slot.breaks { x with inbox := items } = broken := by
      rw [hbroken, Bool.eq_iff_iff, breaks_iff, decide_eq_true_iff]
    have h := slotTakesMark_eq (s := s) (k := k) (x := { x with inbox := items }) hoff
    rw [offerNext_eq, hbreaks] at h
    rw [exec_slotTakeGapMark hx hinbox]
    refine ⟨_, congrArg Host.Outcome.next h, ?_, rfl, ?_, rfl⟩
    · rw [← hbreaks]
      exact congrArg (s.slots.set k) (afterMark_eq _)
    · obtain ⟨hrules, hrings⟩ := State.offerNext_slotGave _ k .mark
      exact ⟨hrules, hrings⟩

/-! ### START -/

theorem takesStart_iff (x : Slot) :
    x.takesStart = true ↔ x.enabled = true ∧ x.trigger = .gated ∧ x.state = .idle := by
  simp [Slot.takesStart, and_assoc]

theorem afterStart_eq (x : Slot) : x.afterStart =
    if x.enabled = true ∧ x.trigger = .gated ∧ x.state = .idle then
      { x with state := .accum, count := 0, window := none } else x := by
  simp only [Slot.afterStart, takesStart_iff]

/-- START_SLOT from check 2 of R37 on. -/
theorem startSlot_eq (s : State) (k : Fin 16) {x : Slot} (hx : x = s.slots.get k) : s.startSlot k =
    if x.enabled = true ∧ x.trigger = .gated ∧ x.state = .idle then
      (.ok, s.setSlot k { x with state := .accum, count := 0, window := none }) else (.state, s) := by
  subst hx
  simp only [State.startSlot, takesStart_iff]
  split
  · next h => rw [afterStart_eq, if_pos h]
  · rfl

/-- Settles O32: a START is taken as `Slot.takesStart` says, by whichever way it comes. -/
theorem startOpensWindow : Obligations.StartOpensWindow := by
  refine ⟨?_, fun s q b hq ha => ?_⟩
  · rintro k s x n rfl hstarts
    have hexec : exec (.slotStart k) s
        = .next (s.setSlot k (Slot.afterStart { s.slots.get k with starts := n })) := by
      simp only [exec, execSlotStart, hstarts, Nat.add_one_ne_zero, if_false, Nat.add_sub_cancel]
    rw [hexec, afterStart_eq]
  · have hanswer : ∀ {status t}, atIndex (indexBelow 16 b.toNat) s s.startSlot = (status, t) →
        exec .startSlot s = .next (answered t q status []) := fun h =>
      hq.exec_answers (run := fun args t =>
          some (bare (atIndex (indexBelow 16 (byteAt args 0)) t t.startSlot))) rfl (ha ▸ rfl)
        (by rw [ha]; exact congrArg (fun y => some (bare y)) h)
    refine ⟨fun hb => ?_, fun k x hk hx => ?_⟩
    · exact hanswer (by rw [indexBelow_eq_none hb]; rfl)
    · have hstart : atIndex (indexBelow 16 b.toNat) s s.startSlot = s.startSlot k := by
        rw [indexBelow_of_val hk.symm]; rfl
      rw [startSlot_eq s k hx] at hstart
      exact ⟨fun h => hanswer (hstart.trans (if_neg h)), fun h => hanswer (hstart.trans (if_pos h))⟩

end Sys2Proof

/-! ## The arithmetic of outputs (O30) -/

namespace Sys2Proof

open Sys2Proof.Machine

/-! ### What a window says of its samples (R28) -/

/-- A window holds the sum, the largest and the smallest of some samples. -/
structure Summarises (w : Window) (us : List Int) : Prop where
  sum : w.sum = us.sum
  max_mem : w.max ∈ us
  min_mem : w.min ∈ us
  bounds : ∀ u ∈ us, w.min ≤ u ∧ u ≤ w.max

theorem summarises_first (v : Int) (i : Nat) : Summarises (Window.first v i) [v] :=
  ⟨by simp [Window.first], List.mem_singleton.mpr rfl, List.mem_singleton.mpr rfl,
    fun u hu => by rw [List.mem_singleton.mp hu]; exact ⟨le_rfl, le_rfl⟩⟩

theorem Summarises.add {w : Window} {us : List Int} (h : Summarises w us) (v : Int) :
    Summarises (w.add v) (us ++ [v]) := by
  rw [windowAdd_eq]
  refine ⟨by simp [h.sum], ?_, ?_, fun u hu => ?_⟩
  · rcases max_choice w.max v with hm | hm
    · simp [hm, h.max_mem]
    · simp [hm]
  · rcases min_choice w.min v with hm | hm
    · simp [hm, h.min_mem]
    · simp [hm]
  · rcases List.mem_append.mp hu with hu | hu
    · obtain ⟨hlo, hhi⟩ := h.bounds u hu
      exact ⟨(min_le_left _ _).trans hlo, hhi.trans (le_max_left _ _)⟩
    · rw [List.mem_singleton.mp hu]
      exact ⟨min_le_right _ _, le_max_right _ _⟩

theorem Summarises.foldl {w : Window} {us : List Int} (h : Summarises w us) (vs : List Int) :
    Summarises (vs.foldl Window.add w) (us ++ vs) := by
  induction vs generalizing w us with
  | nil => simpa using h
  | cons v vs ih => simpa using ih (h.add v)

/-- A window keeps the index of its first sample (R28). -/
theorem firstIndex_foldl (w : Window) (vs : List Int) :
    (vs.foldl Window.add w).firstIndex = w.firstIndex := by
  induction vs generalizing w with
  | nil => rfl
  | cons v vs ih => exact ih (w.add v)

/-- The largest is the smallest exactly when all samples are the same (R32). -/
theorem Summarises.max_eq_min_iff {w : Window} {v : Int} {vs : List Int}
    (h : Summarises w (v :: vs)) : w.max = w.min ↔ ∀ u ∈ vs, u = v := by
  constructor
  · intro heq u hu
    have hu := h.bounds u (List.mem_cons_of_mem v hu)
    have hv := h.bounds v List.mem_cons_self
    omega
  · intro hall
    have hall : ∀ u ∈ v :: vs, u = v := List.forall_mem_cons.mpr ⟨rfl, hall⟩
    rw [hall _ h.max_mem, hall _ h.min_mem]

/-- The sum lies between as many times the smallest and the largest value as there are samples. -/
theorem sum_bounds {us : List Int} {lo hi : Int} (h : ∀ u ∈ us, lo ≤ u ∧ u ≤ hi) :
    lo * us.length ≤ us.sum ∧ us.sum ≤ hi * us.length := by
  constructor
  · simpa [mul_comm lo] using List.card_nsmul_le_sum us lo fun u hu => (h u hu).1
  · simpa [mul_comm hi] using List.sum_le_card_nsmul us hi fun u hu => (h u hu).2

/-! ### Dividing a sum, rounded toward minus infinity (R30, R31) -/

/-- The rounded quotient, and its range from that of the sum. -/
theorem ediv_bounds {sum d lo hi : Int} (hd : 0 < d) (hlo : lo * d ≤ sum) (hhi : sum ≤ hi * d) :
    sum / d * d ≤ sum ∧ sum < (sum / d + 1) * d ∧ lo ≤ sum / d ∧ sum / d ≤ hi :=
  ⟨Int.ediv_mul_le sum hd.ne', Int.lt_ediv_add_one_mul_self sum hd,
    (Int.le_ediv_iff_mul_le hd).mpr hlo,
    (Int.ediv_le_ediv hd hhi).trans_eq (Int.mul_ediv_cancel hi hd.ne')⟩

/-- 2^(e/2) times a value of a format, for e up to 8, is a signed 32-bit value (R31). -/
theorem enhance_range {d lo hi q : Int} (hd : 0 ≤ d ∧ d ≤ 16) (hlo : -8388608 ≤ lo)
    (hhi : hi ≤ 16777215) (hq : lo * d ≤ q ∧ q ≤ hi * d) : -2147483648 ≤ q ∧ q ≤ 2147483647 := by
  have hl : -8388608 * d ≤ lo * d := Int.mul_le_mul_of_nonneg_right hlo hd.1
  have hh : hi * d ≤ 16777215 * d := Int.mul_le_mul_of_nonneg_right hhi hd.1
  omega

/-- Settles O30: the window summarises its values, so that their sum lies between 2^e times the ends of
each range, and the quotients between the ends themselves. -/
theorem outputArithmetic : Obligations.OutputArithmetic := by
  rintro e v vs i f w lo hi he he' hlen hformat hrange rfl
  have hw : Summarises (vs.foldl Window.add (Window.first v i)) (v :: vs) :=
    (summarises_first v i).foldl vs
  have hfirst := firstIndex_foldl (Window.first v i) vs
  generalize vs.foldl Window.add (Window.first v i) = w at hw hfirst
  have hmin := hrange _ hw.min_mem
  have hmax := hrange _ hw.max_mem
  have hlen : ((v :: vs).length : Int) = 2 ^ e := by rw [hlen]; norm_cast
  have hinner := sum_bounds hw.bounds
  have houter := sum_bounds hrange
  rw [hlen] at hinner houter
  refine ⟨hw.sum, hfirst, hw.max_mem, hw.min_mem, hw.bounds, ?_, fun heven => ?_, rfl,
    (hw.bounds v List.mem_cons_self).1.trans (hw.bounds v List.mem_cons_self).2, hmin.1, hmax.2,
    hw.max_eq_min_iff⟩
  · obtain ⟨h₁, h₂, h₃, h₄⟩ := ediv_bounds (d := 2 ^ e) (by positivity) hinner.1 hinner.2
    refine ⟨_, ?_, h₁, h₂, h₃, h₄, hmin.1.trans h₃, h₄.trans hmax.2⟩
    rw [output_eq, if_pos rfl, hw.sum]
  · have hsquare : (2 : Int) ^ e = 2 ^ (e / 2) * 2 ^ (e / 2) := by
      rw [← pow_add]; congr 1; omega
    rw [hsquare, ← mul_assoc, ← mul_assoc] at houter
    have hpow : (0 : Int) < 2 ^ (e / 2) := by positivity
    have hpow' : (2 : Int) ^ (e / 2) ≤ 2 ^ 4 := pow_le_pow_right₀ (by decide) (by omega)
    obtain ⟨h₁, h₂, h₃, h₄⟩ := ediv_bounds hpow houter.1 houter.2
    have ⟨hlo, hhi⟩ : -8388608 ≤ lo ∧ hi ≤ 16777215 := by
      cases f <;> cases hformat <;> decide
    refine ⟨_, ?_, h₁, h₂, h₃, h₄, enhance_range ⟨hpow.le, hpow'⟩ hlo hhi ⟨h₃, h₄⟩⟩
    rw [output_eq, if_neg (by decide), if_pos rfl, hw.sum]

end Sys2Proof

/-! ## Watch rules: criteria, values and gap marks (O33, O34, O35) -/

namespace Sys2Proof

open Sys2Proof.Machine

/-! ### Criteria (R45, R49, R50) -/

theorem changeSize_eq (v previous : Int) : changeSize v previous = |v - previous| :=
  Int.natCast_natAbs _

theorem assertCondition_iff (r : Rule) (v previous : Int) :
    r.assertCondition v previous = true ↔ Asserts r v previous := by
  cases h : r.criterion <;> simp [Rule.assertCondition, Asserts, h, changeSize_eq]

theorem releaseCondition_iff (r : Rule) (v previous : Int) :
    r.releaseCondition v previous = true ↔ Releases r v previous := by
  cases h : r.criterion <;> simp [Rule.releaseCondition, Releases, h, changeSize_eq]

/-- The hysteresis is never negative, so no criterion needs R45 for this. -/
theorem not_releases_of_asserts {r : Rule} {v previous : Int} (ha : Asserts r v previous) :
    ¬ Releases r v previous := by
  cases h : r.criterion <;> simp only [Asserts, Releases, h] at ha ⊢ <;> omega

theorem asserts_iff_not_releases {r : Rule} (hyst : r.hyst = 0) (v previous : Int) :
    Asserts r v previous ↔ ¬ Releases r v previous := by
  cases h : r.criterion <;> simp only [Asserts, Releases, h, hyst] <;> omega

/-- Settles O34: the conditions the model computes are those of R49, and these exclude each other. -/
theorem assertAndReleaseExclude : Obligations.AssertAndReleaseExclude := by
  intro r v previous
  have hassert := assertCondition_iff r v previous
  have hrelease := releaseCondition_iff r v previous
  refine ⟨fun _ ⟨ha, hr⟩ => ?_, fun hyst => ?_, hassert, hrelease, r.consistent_iff⟩
  · exact not_releases_of_asserts (hassert.mp ha) (hrelease.mp hr)
  · rw [hassert, asserts_iff_not_releases hyst, ← hrelease, Bool.not_eq_true]

/-! ### The value a rule takes (R47) -/

theorem valueOf_eq_some {r : Rule} {item : StreamItem} {v : Int} {i : Nat}
    (h : TakesValue r item v i) : r.valueOf item = some (v, i) := by
  obtain rfl | ⟨o, rfl, rfl, hd | ⟨max, min, hd, rfl⟩⟩ := h
  · rfl
  · simp only [Rule.valueOf, hd]
  · cases hp : r.peakPart <;> simp [Rule.valueOf, hd, hp]

/-- Every item but a gap mark has a value for a rule. -/
theorem exists_takesValue (r : Rule) {item : StreamItem} (h : item ≠ .mark) :
    ∃ v i, TakesValue r item v i := by
  cases item with
  | sample v i => exact ⟨v, i, .inl rfl⟩
  | record o =>
    cases hd : o.data with
    | value v => exact ⟨v, _, .inr ⟨o, rfl, rfl, .inl hd⟩⟩
    | peak max min => exact ⟨_, _, .inr ⟨o, rfl, rfl, .inr ⟨max, min, hd, rfl⟩⟩⟩
  | mark => exact absurd rfl h

theorem exec_ruleTakeValue {k : Fin 32} {s : State} {r : Rule} {item : StreamItem}
    {items : List StreamItem} {v : Int} {i : Nat} (hr : r = s.rules.get k)
    (hinbox : r.inbox = item :: items) (hv : TakesValue r item v i) :
    exec (.ruleTakeValue k) s = .next (s.ruleTakesValue k { r with inbox := items } v i) := by
  have hvalue := valueOf_eq_some hv
  subst hr
  simp only [exec, execRuleTakeValue, hinbox, hvalue]

/-! ### One step of the watch machine (R48, R51) -/

/-- The action that a step of the watch machine calls for: an assert into ACTIVE from CLEAR or PENDING, a
release into CLEAR from ACTIVE or LEAVING (R54, R58). -/
def watchAction (before after : RuleState) : RuleAction :=
  if (before = .clear ∨ before = .pending) ∧ after = .active then .assert
  else if (before = .active ∨ before = .leaving) ∧ after = .clear then .release
  else .none

theorem stepState_eq {r : Rule} (hs : r.state ≠ .off) (met : Bool) :
    r.stepState met = ((watchStep r.state r.runCount r.persistence (met = true)).1,
      (watchStep r.state r.runCount r.persistence (met = true)).2,
      watchAction r.state (watchStep r.state r.runCount r.persistence (met = true)).1) := by
  cases h : r.state with
  | off => exact absurd h hs
  | _ =>
    by_cases hn : r.runCount + 1 < r.persistence <;> cases met <;>
      simp [Rule.stepState, watchStep, watchAction, h, hn]

theorem qualifies_iff {r : Rule} (hs : r.state ≠ .off) (v previous : Int) :
    r.qualifies v previous = true ↔ Qualifies r v previous := by
  cases h : r.state with
  | off => exact absurd h hs
  | _ => simp [Rule.qualifies, Qualifies, h, assertCondition_iff, releaseCondition_iff]

theorem evaluates_iff (r : Rule) :
    r.evaluates = true ↔ ¬ (r.criterion = .step ∧ r.previous = none) := by
  simp only [Rule.evaluates, Bool.or_eq_true, decide_eq_true_eq, Option.isSome_iff_ne_none,
    not_and_or, ne_eq]

/-- A STEP rule with no previous value evaluates nothing (R48). -/
theorem stepValue_of_noPrevious {r : Rule} (h : r.criterion = .step ∧ r.previous = none) (v : Int) :
    r.stepValue v = ({ r with previous := some v }, .none) :=
  if_neg fun he => (evaluates_iff r).mp he h

theorem stepValue_evaluated {r : Rule} {v : Int} {met : Bool} (hs : r.state ≠ .off)
    (h : ¬ (r.criterion = .step ∧ r.previous = none))
    (hmet : met = true ↔ Qualifies r v (r.previous.getD 0)) :
    r.stepValue v = ({ r with
        state := (watchStep r.state r.runCount r.persistence (met = true)).1
        runCount := (watchStep r.state r.runCount r.persistence (met = true)).2
        previous := some v },
      watchAction r.state (watchStep r.state r.runCount r.persistence (met = true)).1) := by
  have hq : r.qualifies v (r.previous.getD 0) = met := by
    rw [Bool.eq_iff_iff, qualifies_iff hs, hmet]
  rw [Rule.stepValue, if_pos ((evaluates_iff r).mpr h), hq, stepState_eq hs]

/-! ### Assert and release (R54 to R58) -/

/-- FREEZE reaches the ring that the rule names, and no other part of the state (R56). -/
theorem sendFreeze_spec (s : State) (k : Fin 32) (target : Option (Fin 8)) :
    (∀ g, (s.sendFreeze k target).rings.get g = { s.rings.get g with
        freezes := (s.rings.get g).freezes ++ if target = some g then [k] else [] })
      ∧ s.sendFreeze k target = { s with rings := (s.sendFreeze k target).rings } := by
  cases target with
  | none => exact ⟨fun g => by simp [State.sendFreeze], rfl⟩
  | some j =>
    refine ⟨fun g => ?_, rfl⟩
    by_cases h : j = g
    · subst h; simp [State.sendFreeze]
    · simp [State.sendFreeze, h]

/-- START reaches the slot that the rule names, and no other part of the state (R57). -/
theorem sendStart_spec (s : State) (target : Option (Fin 16)) :
    (∀ j, (s.sendStart target).slots.get j = { s.slots.get j with
        starts := (s.slots.get j).starts + if target = some j then 1 else 0 })
      ∧ s.sendStart target = { s with slots := (s.sendStart target).slots } := by
  cases target with
  | none => exact ⟨fun j => by simp [State.sendStart], rfl⟩
  | some j =>
    refine ⟨fun g => ?_, rfl⟩
    by_cases h : j = g
    · subst h; simp [State.sendStart]
    · simp [State.sendStart, h]

/-- What the messages of an assert reach: the freeze ring and the start slot that the rule names. -/
theorem sends_spec (s : State) (k : Fin 32) (ring : Option (Fin 8)) (slot : Option (Fin 16)) :
    (∀ g, ((s.sendFreeze k ring).sendStart slot).rings.get g = { s.rings.get g with
        freezes := (s.rings.get g).freezes ++ if ring = some g then [k] else [] })
      ∧ (∀ j, ((s.sendFreeze k ring).sendStart slot).slots.get j = { s.slots.get j with
        starts := (s.slots.get j).starts + if slot = some j then 1 else 0 })
      ∧ (s.sendFreeze k ring).sendStart slot = { s with
          rings := ((s.sendFreeze k ring).sendStart slot).rings
          slots := ((s.sendFreeze k ring).sendStart slot).slots } := by
  obtain ⟨hrings, hfreeze⟩ := sendFreeze_spec s k ring
  obtain ⟨hslots, hstart⟩ := sendStart_spec (s.sendFreeze k ring) slot
  refine ⟨fun g => ?_, fun j => ?_, ?_⟩
  · rw [hstart]; exact hrings g
  · rw [hslots j, hfreeze]
  · rw [hstart, hfreeze]

/-- `t` is `s` after the rule `k` has become `y` by a value and has done what the step called for (R54,
R58). -/
structure RuleActed (s t : State) (k : Fin 32) (y : Rule) (action : RuleAction) (v : Int) (i : Nat) :
    Prop where
  rules : t.rules = s.rules.set k { y with
    asserts := if action = .assert then min (y.asserts + 1) 4294967295 else y.asserts
    lastAssert := if action = .assert then some s.timebase else y.lastAssert }
  requests : t.events.requests = s.events.requests
    ++ if action = .assert ∧ y.eventOnAssert = true then [s.ruleRequest k y .ruleAssert v i]
      else if action = .release ∧ y.eventOnRelease = true then [s.ruleRequest k y .ruleRelease v i]
      else []
  rings : ∀ g, t.rings.get g = { s.rings.get g with
    freezes := (s.rings.get g).freezes
      ++ if action = .assert ∧ y.freezeRing = some g then [k] else [] }
  slots : ∀ j, t.slots.get j = { s.slots.get j with
    starts := (s.slots.get j).starts + if action = .assert ∧ y.startSlot = some j then 1 else 0 }
  rest : t = { s with rules := t.rules, rings := t.rings, slots := t.slots,
                      events := { s.events with requests := t.events.requests } }

section
variable (s : State) (k : Fin 32) (y : Rule) (v : Int) (i : Nat)

theorem ruleActed_none : RuleActed s (s.setRule k y) k y .none v i where
  rules := rfl
  requests := by simp
  rings := by simp
  slots := by simp
  rest := rfl

theorem ruleActed_release : RuleActed s (s.ruleReleases k y v i) k y .release v i := by
  cases he : y.eventOnRelease <;> simp only [State.ruleReleases, he] <;>
    exact ⟨rfl, by simp [he], by simp, by simp, rfl⟩

theorem ruleAsserts_eq : s.ruleAsserts k y v i = (((s.setRule k { y with
      asserts := bump32 y.asserts, lastAssert := some s.timebase }).requestEvents
        (if y.eventOnAssert = true then [s.ruleRequest k y .ruleAssert v i] else [])).sendFreeze k
          y.freezeRing).sendStart y.startSlot := by
  cases he : y.eventOnAssert
  · simp only [State.ruleAsserts, he, Bool.false_eq_true, if_false, requestEvents_nothing]
  · simp only [State.ruleAsserts, he, if_true]
    rfl

theorem ruleActed_assert : RuleActed s (s.ruleAsserts k y v i) k y .assert v i := by
  rw [ruleAsserts_eq]
  obtain ⟨hrings, hslots, hrest⟩ := sends_spec ((s.setRule k { y with
    asserts := bump32 y.asserts, lastAssert := some s.timebase }).requestEvents
      (if y.eventOnAssert = true then [s.ruleRequest k y .ruleAssert v i] else [])) k
        y.freezeRing y.startSlot
  refine ⟨?_, ?_, fun g => ?_, fun j => ?_, ?_⟩
  · rw [hrest]; rfl
  · rw [hrest]; simp
  · simp [hrings]
  · simp [hslots]
  · rw [hrest]; rfl

/-- An enabled rule takes a value: its watch machine steps, and it does what the step calls for. -/
theorem ruleTakesValue_acted {r : Rule} (he : r.enabled = true) :
    RuleActed s (s.ruleTakesValue k r v i) k (r.stepValue v).1 (r.stepValue v).2 v i := by
  rw [State.ruleTakesValue, if_pos he]
  obtain ⟨y, action⟩ := r.stepValue v
  cases action with
  | none => exact ruleActed_none s k y v i
  | assert => exact ruleActed_assert s k y v i
  | release => exact ruleActed_release s k y v i

end

/-- A rule that is not enabled misses a value (R16). -/
theorem ruleTakesValue_disabled {s : State} {k : Fin 32} {r : Rule} (h : r.enabled = false) (v : Int)
    (i : Nat) : s.ruleTakesValue k r v i = s.setRule k r := by
  rw [State.ruleTakesValue, if_neg (by simp [h])]

theorem ruleTakesValue_noPrevious {s : State} {k : Fin 32} {r : Rule} (he : r.enabled = true)
    (h : r.criterion = .step ∧ r.previous = none) (v : Int) (i : Nat) :
    s.ruleTakesValue k r v i = s.setRule k { r with previous := some v } := by
  rw [State.ruleTakesValue, if_pos he, stepValue_of_noPrevious h]

theorem watchAction_eq_assert {before after : RuleState} : watchAction before after = .assert ↔
    (before = .clear ∨ before = .pending) ∧ after = .active := by
  rw [watchAction]; split_ifs <;> simp_all

theorem watchAction_eq_release {before after : RuleState} : watchAction before after = .release ↔
    (before = .active ∨ before = .leaving) ∧ after = .clear := by
  rw [watchAction]; split_ifs <;> simp_all

/-- Settles O33: an item gives the rule a value, by which its watch machine takes one step, and the step's
action says what reaches the event unit, the ring and the slot. -/
theorem ruleStepsWatchMachine : Obligations.RuleStepsWatchMachine := by
  refine ⟨fun k s item items hinbox hmark hoff => ?_,
    fun k s r item items v i hr hinbox hv he hs => ⟨fun h => ?_, ?_⟩⟩
  · obtain ⟨v, i, hv⟩ := exists_takesValue (s.rules.get k) hmark
    rw [exec_ruleTakeValue rfl hinbox hv]
    exact congrArg Host.Outcome.next
      (ruleTakesValue_disabled (r := { s.rules.get k with inbox := items }) hoff v i)
  · rw [exec_ruleTakeValue hr hinbox hv]
    exact congrArg Host.Outcome.next
      (ruleTakesValue_noPrevious (r := { r with inbox := items }) he h v i)
  · intro met asserts releases after channel hstep hmet hafter hasserts hreleases hchannel
    have hacted := ruleTakesValue_acted s k v i (r := { r with inbox := items }) he
    rw [stepValue_evaluated (r := { r with inbox := items }) hs hstep hmet] at hacted
    have hassert : asserts = true ↔ watchAction r.state after.1 = .assert := by
      rw [hasserts, decide_eq_true_iff, watchAction_eq_assert]
    have hrelease : releases = true ↔ watchAction r.state after.1 = .release := by
      rw [hreleases, decide_eq_true_iff, watchAction_eq_release]
    subst hafter hchannel
    obtain ⟨hrules, hrequests, hrings, hslots, hrest⟩ := hacted
    simp only [hassert, hrelease]
    exact ⟨_, exec_ruleTakeValue hr hinbox hv, hrules, hrequests, hrings, hslots, hrest⟩

/-! ### Gap marks (R53) -/

theorem exec_ruleTakeGapMark {k : Fin 32} {s : State} {r : Rule} {items : List StreamItem}
    (hr : r = s.rules.get k) (hinbox : r.inbox = .mark :: items) :
    exec (.ruleTakeGapMark k) s = .next (s.setRule k
      (if r.enabled = true then Rule.afterMark { r with inbox := items }
        else { r with inbox := items })) := by
  subst hr
  simp only [exec, execRuleTakeGapMark, hinbox]

theorem ruleStateAfterMark_eq {x : RuleState} (h : x ≠ .off) :
    x.afterMark = if x = .clear ∨ x = .pending then .clear else .active := by
  cases x with
  | off => exact absurd rfl h
  | _ => rfl

/-- A mark changes nothing at a rule where a mark has been (R53). -/
theorem ruleAfterMark_eq_self {r : Rule} (hs : r.state = .clear ∨ r.state = .active)
    (hc : r.runCount = 0) (hp : r.previous = none) : r.afterMark = r := by
  have hstate : r.state.afterMark = r.state := by rcases hs with h | h <;> rw [h] <;> rfl
  simp only [Rule.afterMark, hstate, ← hc, ← hp]

theorem setRule_setRule (s : State) (k : Fin 32) (x y : Rule) :
    (s.setRule k x).setRule k y = s.setRule k y := by
  simp [State.setRule, Table.set]

/-- Settles O35: a mark leaves the rule in CLEAR or ACTIVE, where a mark changes nothing more, and with no
previous value, so that a STEP rule evaluates nothing at the next value. -/
theorem ruleTakesGapMark : Obligations.RuleTakesGapMark := by
  refine ⟨fun k s items hinbox hoff => ?_, ?_⟩
  · rw [exec_ruleTakeGapMark rfl hinbox, if_neg (by simp [hoff])]
  · intro k s r y items hr hinbox he hs hy
    have hafter : Rule.afterMark { r with inbox := items } = y := by
      rw [hy, ← ruleStateAfterMark_eq hs]; rfl
    have hget : y = (s.setRule k y).rules.get k := by simp
    have hye : y.enabled = true := hy ▸ he
    have hinboxy : y.inbox = items := hy ▸ rfl
    have hcount : y.runCount = 0 := hy ▸ rfl
    have hprevious : y.previous = none := hy ▸ rfl
    refine ⟨?_, fun more hmore => ?_, fun v i more hmore hstep => ?_⟩
    · rw [exec_ruleTakeGapMark hr hinbox, if_pos he, hafter]
    · have hstate : y.state = .clear ∨ y.state = .active := by
        rw [hy]; exact ite_eq_or_eq _ _ _
      rw [exec_ruleTakeGapMark hget (hinboxy.trans hmore), if_pos hye, setRule_setRule,
        ruleAfterMark_eq_self (r := { y with inbox := more }) hstate hcount hprevious]
    · have hcriterion : y.criterion = .step := hy ▸ hstep
      rw [exec_ruleTakeValue hget (hinboxy.trans hmore) (.inl rfl),
        ruleTakesValue_noPrevious (r := { y with inbox := more }) hye ⟨hcriterion, hprevious⟩,
        setRule_setRule]

end Sys2Proof

/-! ## Rings: FREEZE (O39) -/

namespace Sys2Proof

open Sys2Proof.Machine

/-- Taking one of some equal items leaves the others in their order. -/
theorem takeFirst_eq_erase {α : Type} [DecidableEq α] {x : α} {l : List α} (h : x ∈ l) :
    takeFirst (fun y => decide (y = x)) l = some (x, l.erase x) := by
  induction l with
  | nil => simp at h
  | cons a l ih =>
    by_cases ha : a = x
    · simp [takeFirst, ha]
    · have hl : x ∈ l := (List.mem_cons.mp h).resolve_left (Ne.symm ha)
      simp [takeFirst, ha, ih hl]

section
variable {s : State} {k : Fin 8} {r : Ring} {t : Trigger}

theorem ringTakesFreeze_ignored
    (h : ¬ (r.enabled = true ∧ r.mode = .snapshot ∧ r.snapshot.state = .run)) :
    s.ringTakesFreeze k r t = s.setRing k r := if_neg h

theorem ringTakesFreeze_countdown
    (h : r.enabled = true ∧ r.mode = .snapshot ∧ r.snapshot.state = .run) (hp : r.postCount ≠ 0) :
    s.ringTakesFreeze k r t = s.setRing k { r with snapshot := { r.snapshot with
      state := .countdown, pending := some ⟨t, s.timebase⟩, remaining := r.postCount } } := by
  simp only [State.ringTakesFreeze, if_pos h, Ring.takeFreeze, if_neg hp, requestEvents_nothing]

/-- With no words to take after the trigger, the countdown ends where it begins (R85). -/
theorem ringTakesFreeze_frozen
    (h : r.enabled = true ∧ r.mode = .snapshot ∧ r.snapshot.state = .run) (hp : r.postCount = 0) :
    ∃ y, WentFrozen r y ⟨t, s.timebase⟩ s.timebase
      ∧ s.ringTakesFreeze k r t = { s.setRing k y with events := { s.events with
          requests := s.events.requests ++ frozenRequests k r t s.timebase } } := by
  obtain ⟨hfrozen, hrequests⟩ := Ring.goFrozen_spec
    { r with snapshot := { r.snapshot with
        state := .countdown, pending := some ⟨t, s.timebase⟩, remaining := r.postCount } }
    k ⟨t, s.timebase⟩ s.timebase
  refine ⟨_, hfrozen, ?_⟩
  simp only [State.ringTakesFreeze, if_pos h, Ring.takeFreeze, if_pos hp, hrequests]
  rfl

end

theorem exec_ringFreeze {k : Fin 8} {j : Fin 32} {s : State} {r : Ring} (hr : r = s.rings.get k)
    (hj : j ∈ r.freezes) : exec (.ringFreeze k j) s
      = .next (s.ringTakesFreeze k { r with freezes := r.freezes.erase j } (.rule j)) := by
  subst hr
  simp only [exec, execRingFreeze, takeFirst_eq_erase hj]

/-- FREEZE_RING answers what the operation at the ring that its one argument names gives (R83). -/
theorem exec_freezeRing {s t : State} {q : Request} {b : Byte} {status : Status}
    (hq : Executes s q 0x0D) (ha : q.args = [b])
    (h : atIndex (indexBelow 8 b.toNat) s s.freezeRing = (status, t)) :
    exec .freezeRing s = .next (answered t q status []) := by
  refine hq.exec_answers (run := fun args u =>
    some (bare (atIndex (indexBelow 8 (byteAt args 0)) u u.freezeRing))) rfl (ha ▸ rfl) ?_
  rw [ha]
  exact congrArg (fun y => some (bare y)) h

/-- Settles O39: a FREEZE that a ring takes does the same, whether it comes from a rule or by FREEZE_RING. -/
theorem freezeStartsCountdown : Obligations.FreezeStartsCountdown := by
  refine ⟨fun k j s r z hr hj hz => ?_, fun s q b hq ha =>
    ⟨fun hb => exec_freezeRing hq ha (by rw [indexBelow_eq_none hb]; rfl), fun k r hk hr => ?_⟩⟩
  · rw [exec_ringFreeze hr hj, ← hz]
    have hsame : z.enabled = r.enabled ∧ z.mode = r.mode ∧ z.snapshot = r.snapshot
        ∧ z.postCount = r.postCount := hz ▸ ⟨rfl, rfl, rfl, rfl⟩
    obtain ⟨he, hm, hs, hp⟩ := hsame
    rw [← he, ← hm, ← hs, ← hp]
    refine ⟨fun h => ?_, fun h hpost => ?_, fun h hpost => ?_⟩
    · rw [ringTakesFreeze_ignored h]
    · rw [ringTakesFreeze_countdown h hpost]
    · obtain ⟨y, hy, ht⟩ := ringTakesFreeze_frozen (s := s) (k := k) (t := .rule j) h hpost
      exact ⟨y, hy, congrArg Host.Outcome.next ht⟩
  · have answer {status u} (h : s.freezeRing k = (status, u)) :
        exec .freezeRing s = .next (answered u q status []) :=
      exec_freezeRing hq ha (by rw [indexBelow_of_val hk.symm]; exact h)
    have htakes (he : r.enabled = true) (hm : r.mode = .snapshot) (hs : r.snapshot.state = .run) :
        s.freezeRing k = (.ok, s.ringTakesFreeze k r .manual) := by
      subst hr; simp [State.freezeRing, he, hm, hs]
    refine ⟨fun he => answer ?_, fun he hm => answer ?_, fun he hm hs => answer ?_,
      fun he hm hs hpost => ?_, fun he hm hs hpost => ?_⟩
    · subst hr; simp [State.freezeRing, he]
    · subst hr; simp [State.freezeRing, he, hm]
    · subst hr; simp [State.freezeRing, he, hm, hs]
    · rw [answer (htakes he hm hs), ringTakesFreeze_countdown ⟨he, hm, hs⟩ hpost]
    · obtain ⟨y, hy, ht⟩ :=
        ringTakesFreeze_frozen (s := s) (k := k) (t := .manual) ⟨he, hm, hs⟩ hpost
      exact ⟨y, hy, ht ▸ answer (htakes he hm hs)⟩

end Sys2Proof

/-! ## The event unit takes an enqueue request (O40) -/

namespace Sys2Proof

open Sys2Proof.Machine

section
variable {e : EventUnit} {q : EventRequest} {now : Nat}

theorem settleLoss_of_nothingLost (h : e.pendingLoss = 0) : e.settleLoss now = e :=
  if_neg fun hdue => hdue.2 h

theorem settleLoss_of_full (h : 128 ≤ e.queue.length) : e.settleLoss now = e :=
  if_neg fun hdue => absurd hdue.1 (Nat.not_lt.mpr h)

theorem settleLoss_of_due (hroom : e.queue.length < 128) (hloss : e.pendingLoss ≠ 0) :
    e.settleLoss now = { e with
      queue := e.queue ++ [ownRecord .loss 0 (some e.pendingLoss) now e.serial]
      serial := (e.serial + 1) % 65536
      pendingLoss := 0 } := if_pos ⟨hroom, hloss⟩

theorem enqueue_of_room (h : e.queue.length < 128) : e.enqueue q = { e with
    queue := e.queue ++ [q.toRecord e.serial], serial := (e.serial + 1) % 65536 } := if_pos h

theorem enqueue_of_full (h : 128 ≤ e.queue.length) : e.enqueue q = { e with
    pendingLoss := min (e.pendingLoss + 1) 4294967295
    lifetimeLoss := min (e.lifetimeLoss + 1) 4294967295 } := if_neg (Nat.not_lt.mpr h)

end

theorem exec_eventEnqueue {s : State} {q : EventRequest} {before after : List EventRequest}
    (h : s.events.requests = before ++ q :: after) (hfirst : ∀ x ∈ before, x.requester ≠ q.requester) :
    exec (.eventEnqueue q.requester) s = .next { s with events :=
      (EventUnit.settleLoss { s.events with requests := before ++ after } s.timebase).enqueue q } := by
  have htake : takeFirst (fun x => decide (x.requester = q.requester)) s.events.requests
      = some (q, before ++ after) := by
    rw [h]
    exact takeFirst_append before after q (by simp) fun x hx => by simpa using hfirst x hx
  simp only [exec, execEventEnqueue, htake]

/-- Settles O40: a LOSS record that is due joins the queue first, and the request meets the room it
leaves. -/
theorem eventUnitQueuesRequests : Obligations.EventUnitQueuesRequests := by
  intro s q before after u record hrequests hfirst hu _ hrecord
  have hexec : ∀ {e}, (u.settleLoss s.timebase).enqueue q = e →
      exec (.eventEnqueue q.requester) s = .next { s with events := e } := by
    rintro _ rfl
    rw [hu]
    exact exec_eventEnqueue hrequests hfirst
  have hmade : ∀ n, q.toRecord n = record n := fun n => (hrecord n).symm
  refine ⟨fun hroom hnone => hexec ?_, fun hfull => hexec ?_, fun hroom hloss => hexec ?_,
    fun hlast hloss => hexec ?_⟩
  · rw [settleLoss_of_nothingLost hnone, enqueue_of_room hroom, hmade]
  · rw [settleLoss_of_full hfull, enqueue_of_full hfull]
  · rw [settleLoss_of_due (by omega) hloss, enqueue_of_room (by simp; omega), hmade]
    simp [ownRecord]
  · rw [settleLoss_of_due (by omega) hloss, enqueue_of_full (by simp; omega)]
    simp [ownRecord]

end Sys2Proof

/-! ## The rings, capture memory and the readout in progress: what one command can do (O5, O8, O9)

A readout in progress claims one part of one ring. What a command leaves of the rings, of capture memory and
of that claim is said once, as a `CaptureMove`; each invariant is then shown of the moves. -/

namespace Sys2Proof

open Sys2Proof.Machine

/-! ### The part that a readout in progress reads -/

/-- What the engine's record says of the part being read: which it is, and where its words lie (R94). -/
structure Claim where
  ring : Fin 8
  part : RingPart
  total : Nat
  start : Nat

def Machine.ReadoutRecord.claim (x : ReadoutRecord) : Claim := ⟨x.ring, x.part, x.total, x.start⟩

def Machine.EngineState.claim : EngineState → Option Claim
  | .sending x => some x.claim
  | _ => none

def Machine.State.claim (s : State) : Option Claim := s.readout.engine.claim

/-- The part of the state that the capture unit and the claim of the readout engine make up. -/
structure Capture where
  rings : Table Ring 8
  memory : CaptureMemory
  claim : Option Claim

def Machine.State.capture (s : State) : Capture := ⟨s.rings, s.memory, s.claim⟩

theorem claim_of_sending {s : State} {x : ReadoutRecord} (h : s.readout.engine = .sending x) :
    s.claim = some x.claim := by
  rw [State.claim, h]; rfl

theorem claim_eq_some_iff {s : State} {c : Claim} :
    s.claim = some c ↔ ∃ x, s.readout.engine = .sending x ∧ x.claim = c := by
  constructor
  · intro h
    cases he : s.readout.engine with
    | sending x => rw [claim_of_sending he] at h; exact ⟨x, rfl, Option.some.inj h⟩
    | _ => rw [State.claim, he] at h; cases h
  · rintro ⟨x, hx, rfl⟩; exact claim_of_sending hx

/-- The words a claim names are those of its part (R94, R96, R97). -/
def HoldsPart (r : Ring) (c : Claim) : Prop :=
  c.total ≤ r.length
  ∧ (∀ h, c.part.half = some h →
      c.start = r.base + (if h = .a then 0 else r.length / 2)
      ∧ c.total = (r.stream.half h).fill ∧ c.total ≤ r.length / 2
      ∧ c.start + c.total ≤ Config.captureWords)
  ∧ (c.part = .snapshot → ∃ d, r.snapshot.record = some d ∧ c.total = d.valid
      ∧ (c.start : Int) = ((d.endPosition : Int) - d.valid) % r.length)

theorem readoutInRange_iff (s : State) :
    ReadoutInRange s ↔ ∀ c, s.claim = some c → HoldsPart (s.rings.get c.ring) c := by
  constructor
  · intro h c hc
    obtain ⟨x, hx, rfl⟩ := claim_eq_some_iff.mp hc
    exact h x _ hx rfl
  · rintro h x _ hx rfl
    exact h x.claim (claim_of_sending hx)

/-! ### Rings one by one (R67, R73, R81, R92) -/

/-- The range and the valid lengths of one ring (R67, R81). -/
def RingInRange (r : Ring) : Prop :=
  r.base + r.length ≤ Config.captureWords
  ∧ r.length % 64 = 0
  ∧ (r.length = 0 ∨ 128 ≤ r.length)
  ∧ (r.enabled = true → r.length ≠ 0)
  ∧ r.postCount ≤ r.length
  ∧ SnapshotState.InRange r.snapshot r.length

/-- What O8 says of one ring. -/
structure RingGood (r : Ring) : Prop where
  sound : Ring.Sound r
  range : RingInRange r

theorem RingGood.length_of_enabled {r : Ring} (h : RingGood r) (he : r.enabled = true) :
    128 ≤ r.length := by
  obtain ⟨_, _, hlen, hne, _⟩ := h.range
  exact hlen.resolve_left (hne he)

/-- What O8 says of all rings: each is good, and its parts are READING exactly where they are claimed. -/
structure CaptureSound (x : Capture) : Prop where
  rings : ∀ k, RingGood (x.rings.get k)
  reading : ∀ k part, partReading (x.rings.get k) part = true
    ↔ ∃ c, x.claim = some c ∧ c.ring = k ∧ c.part = part

theorem claims_iff {s : State} {k : Fin 8} {part : RingPart} :
    (∃ c, s.claim = some c ∧ c.ring = k ∧ c.part = part)
      ↔ ∃ x, s.readout.engine = .sending x ∧ x.ring = k ∧ x.part = part := by
  constructor
  · rintro ⟨c, hc, hk, hp⟩
    obtain ⟨x, hx, rfl⟩ := claim_eq_some_iff.mp hc
    exact ⟨x, hx, hk, hp⟩
  · rintro ⟨x, hx, hk, hp⟩
    exact ⟨x.claim, claim_of_sending hx, hk, hp⟩

theorem captureSound_iff (s : State) : CaptureSound s.capture ↔ RingsSound s ∧ RangesSound s := by
  constructor
  · intro h
    exact ⟨⟨fun k => (h.rings k).sound, fun k part => (h.reading k part).trans claims_iff⟩,
      fun k => (h.rings k).range⟩
  · rintro ⟨⟨hsound, hreading⟩, hrange⟩
    exact ⟨fun k => ⟨hsound k, hrange k⟩, fun k part => (hreading k part).trans claims_iff.symm⟩

/-! #### The parts of a ring -/

theorem HalfId.eq_or_eq_other (h g : HalfId) : g = h ∨ g = h.other := by
  cases h <;> cases g <;> simp [HalfId.other]

theorem partReading_half (r : Ring) {part : RingPart} {h : HalfId} (hp : part.half = some h) :
    partReading r part = true ↔ (r.stream.half h).state = .reading := by
  simp [partReading, hp]

theorem partReading_snapshot (r : Ring) :
    partReading r .snapshot = true ↔ r.snapshot.state = .reading := by
  simp [partReading, RingPart.half]

theorem RingPart.half_eq_none {part : RingPart} : part.half = none ↔ part = .snapshot := by
  cases part <;> simp [RingPart.half]

/-- A ring's soundness by its mode (R68). -/
theorem ringSound_stream {r : Ring} (he : r.enabled = true) (hm : r.mode = .stream) :
    Ring.Sound r ↔ StreamState.Sound r.stream ∧ r.snapshot = SnapshotState.reset := by
  simp [Ring.Sound, he, hm]

theorem ringSound_snapshot {r : Ring} (he : r.enabled = true) (hm : r.mode = .snapshot) :
    Ring.Sound r ↔ SnapshotState.Sound r.snapshot ∧ r.stream = StreamState.reset := by
  simp [Ring.Sound, he, hm]

theorem ringSound_disabled {r : Ring} (he : r.enabled = false) :
    Ring.Sound r ↔ r.stream = StreamState.reset ∧ r.snapshot = SnapshotState.reset := by
  simp [Ring.Sound, he]

theorem half_streamReset (h : HalfId) : StreamState.reset.half h = Half.reset := by cases h <;> rfl

theorem snapshotReset_inRange (length : Nat) : SnapshotState.InRange SnapshotState.reset length :=
  ⟨Nat.zero_le _, Nat.zero_le _, .inl rfl, fun _ h => (nomatch h)⟩

theorem snapshotBegun_inRange (length : Nat) : SnapshotState.InRange SnapshotState.begun length :=
  snapshotReset_inRange length

/-! ### Fills (R71, R73) -/

/-- The fill of a half of a ring of some length whose source gives `w` words an item. -/
def HalfFits (length w : Nat) (x : Half) : Prop :=
  x.fill ≤ length / 2
  ∧ x.fill % w = 0
  ∧ (x.state = .filling → x.fill < length / 2)
  ∧ (x.state = .full ∨ x.state = .reading → x.fill ≠ 0)

def HalvesFit (length w : Nat) (x : StreamState) : Prop := ∀ h, HalfFits length w (x.half h)

/-- The words of an item are none, or as many as its source gives. -/
def GivesWords (w : Nat) (item : StreamItem) : Prop := item.words.length = 0 ∨ item.words.length = w

/-- A ring that may take what is in flight to it: it is enabled, or may be while its source is (R69). -/
def RingOn (s : State) (r : Ring) : Prop := r.enabled = true ∨ SourceOn s r.sourceKind r.sourceIndex

/-- What O9 says: items, fills, and the words of the part being read, where each ring's source gives items
of a width and some rings may take them. -/
structure CaptureFits (width : Fin 8 → Nat) (on : Fin 8 → Prop) (x : Capture) : Prop where
  items : ∀ k, on k → ∀ item ∈ (x.rings.get k).inbox, GivesWords (width k) item
  fills : ∀ k, (x.rings.get k).enabled = true → (x.rings.get k).mode = .stream →
    HalvesFit (x.rings.get k).length (width k) (x.rings.get k).stream
  holds : ∀ c, x.claim = some c → HoldsPart (x.rings.get c.ring) c

/-- The same at a state. -/
abbrev Fitting (s : State) : Prop :=
  CaptureFits (fun k => itemWidth s (s.rings.get k)) (fun k => RingOn s (s.rings.get k)) s.capture

theorem fitting_iff (s : State) : Fitting s ↔ FillsSound s ∧ ReadoutInRange s := by
  constructor
  · intro h
    refine ⟨fun k => ⟨h.items k, fun he hm g x hx => ?_⟩, (readoutInRange_iff s).mpr h.holds⟩
    rw [hx]; exact h.fills k he hm g
  · rintro ⟨hf, hr⟩
    exact ⟨fun k => (hf k).1, fun k he hm g => (hf k).2 he hm g _ rfl, (readoutInRange_iff s).mp hr⟩

theorem itemWidth_cases (s : State) (r : Ring) : itemWidth s r = 1 ∨ itemWidth s r = 2 := by
  simp only [itemWidth]
  split
  · split
    · exact .inr rfl
    · exact .inl rfl
  · exact .inl rfl

end Sys2Proof

namespace Sys2Proof

open Sys2Proof.Machine

/-! ### What an operation at one ring keeps -/

/-- What an operation that may add one item of `n` words keeps of the STREAM state of a ring of a length:
the half being read stays as it is, and no other becomes READING. -/
structure StreamMove (length n : Nat) (x y : StreamState) : Prop where
  off : x.writer = .off → y = x
  sound : StreamState.Sound x → StreamState.Sound y
  reading : ∀ h, (x.half h).state = .reading → y.half h = x.half h
  fresh : ∀ h, (y.half h).state = .reading → (x.half h).state = .reading
  fills : ∀ w, w = 1 ∨ w = 2 → n = 0 ∨ n = w → HalvesFit length w x → HalvesFit length w y

/-- The same of the SNAPSHOT state of a ring. -/
structure SnapshotMove (length : Nat) (x y : SnapshotState) : Prop where
  off : x.state = .off → y = x
  sound : SnapshotState.Sound x → SnapshotState.Sound y
  inRange : SnapshotState.InRange x length → SnapshotState.InRange y length
  reading : x.state = .reading → y = x
  fresh : y.state = .reading → x.state = .reading

theorem StreamMove.refl (length n : Nat) (x : StreamState) : StreamMove length n x x :=
  ⟨fun _ => rfl, id, fun _ _ => rfl, fun _ => id, fun _ _ _ => id⟩

theorem SnapshotMove.refl (length : Nat) (x : SnapshotState) : SnapshotMove length x x :=
  ⟨fun _ => rfl, id, id, fun _ => rfl, id⟩

/-- What an operation at one ring keeps that may take one item of `n` words and leaves the part being read
alone. -/
structure RingMove (n : Nat) (r y : Ring) : Prop where
  settings : y.settings = r.settings
  inbox : ∀ item ∈ y.inbox, item ∈ r.inbox
  stream : StreamMove r.length n r.stream y.stream
  snapshot : SnapshotMove r.length r.snapshot y.snapshot

/-- What the settings of a ring fix (section 4.2). -/
theorem ring_of_settings {x y : Ring} (h : y.settings = x.settings) :
    y = { x with dropped := y.dropped, lost := y.lost, stream := y.stream, snapshot := y.snapshot,
                 inbox := y.inbox, freezes := y.freezes } := by
  cases x; cases y
  simp only [Ring.settings, Ring.mk.injEq] at h ⊢
  tauto

theorem RingMove.good {n : Nat} {r y : Ring} (h : RingMove n r y) (hr : RingGood r) : RingGood y := by
  obtain ⟨hsound, hbase, hlen, hlen', hne, hpost, hsnap⟩ := hr
  have hy := ring_of_settings h.settings
  have hrange := h.snapshot.inRange hsnap
  refine ⟨?_, by rw [hy]; exact ⟨hbase, hlen, hlen', hne, hpost, hrange⟩⟩
  have he' : y.enabled = r.enabled := by rw [hy]
  have hm' : y.mode = r.mode := by rw [hy]
  cases he : r.enabled with
  | false =>
    obtain ⟨hst, hsn⟩ := (ringSound_disabled he).mp hsound
    rw [ringSound_disabled (he'.trans he), h.stream.off (hst ▸ rfl), h.snapshot.off (hsn ▸ rfl)]
    exact ⟨hst, hsn⟩
  | true =>
    cases hm : r.mode with
    | stream =>
      obtain ⟨hst, hsn⟩ := (ringSound_stream he hm).mp hsound
      rw [ringSound_stream (he'.trans he) (hm'.trans hm), h.snapshot.off (hsn ▸ rfl)]
      exact ⟨h.stream.sound hst, hsn⟩
    | snapshot =>
      obtain ⟨hsn, hst⟩ := (ringSound_snapshot he hm).mp hsound
      rw [ringSound_snapshot (he'.trans he) (hm'.trans hm), h.stream.off (hst ▸ rfl)]
      exact ⟨h.snapshot.sound hsn, hst⟩

theorem RingMove.partReading_iff {n : Nat} {r y : Ring} (h : RingMove n r y) (part : RingPart) :
    partReading y part = true ↔ partReading r part = true := by
  cases hp : part.half with
  | some g =>
    rw [partReading_half y hp, partReading_half r hp]
    exact ⟨h.stream.fresh g, fun hg => by rw [h.stream.reading g hg]; exact hg⟩
  | none =>
    rw [RingPart.half_eq_none.mp hp, partReading_snapshot, partReading_snapshot]
    exact ⟨h.snapshot.fresh, fun hg => by rw [h.snapshot.reading hg]; exact hg⟩

/-- A claim holds of a ring with the same range where the claimed part has its words from before. -/
theorem HoldsPart.of_part {r y : Ring} {c : Claim} (hc : HoldsPart r c) (hb : y.base = r.base)
    (hl : y.length = r.length)
    (hhalf : ∀ h, c.part.half = some h → (y.stream.half h).fill = (r.stream.half h).fill)
    (hsnap : c.part = .snapshot → y.snapshot.record = r.snapshot.record) : HoldsPart y c := by
  obtain ⟨htotal, hhalves, hsnapshot⟩ := hc
  refine ⟨hl ▸ htotal, fun h hh => ?_, fun hp => ?_⟩
  · rw [hb, hl, hhalf h hh]; exact hhalves h hh
  · rw [hl, hsnap hp]; exact hsnapshot hp

theorem RingMove.holds {n : Nat} {r y : Ring} (h : RingMove n r y) {c : Claim}
    (hread : partReading r c.part = true) (hc : HoldsPart r c) : HoldsPart y c := by
  have hy := ring_of_settings h.settings
  refine hc.of_part (by rw [hy]) (by rw [hy]) (fun g hg => ?_) fun hp => ?_
  · rw [h.stream.reading g ((partReading_half r hg).mp hread)]
  · rw [hp, partReading_snapshot] at hread
    rw [h.snapshot.reading hread]

/-- A ring whose in-flight items and counts alone change. -/
theorem RingMove.of_inFlight {n : Nat} {r y : Ring}
    (hy : y = { r with dropped := y.dropped, lost := y.lost, inbox := y.inbox, freezes := y.freezes })
    (hi : ∀ item ∈ y.inbox, item ∈ r.inbox) : RingMove n r y := by
  refine ⟨by rw [hy]; rfl, hi, ?_, ?_⟩
  · rw [hy]; exact StreamMove.refl _ _ _
  · rw [hy]; exact SnapshotMove.refl _ _

/-! #### Halves (R74, R75, R78) -/

section
variable {length n : Nat} {x y : StreamState} {h : HalfId}

theorem sound_filling (hw : x.writer = .filling h) :
    StreamState.Sound x ↔ (x.half h).state = .filling ∧ (x.half h.other).state ≠ .filling := by
  simp [StreamState.Sound, hw]

theorem sound_stalled (hw : x.writer = .stalled h) : StreamState.Sound x ↔
    ((x.half h).state = .full ∨ (x.half h).state = .reading) ∧ (x.half h.other).state ≠ .filling := by
  simp [StreamState.Sound, hw]

/-- A change of one half alone, which is READING neither before nor after. -/
theorem StreamMove.of_half (hoff : x.writer ≠ .off) (hsound : StreamState.Sound x → StreamState.Sound y)
    (hxr : (x.half h).state ≠ .reading) (hyr : (y.half h).state ≠ .reading)
    (ho : y.half h.other = x.half h.other)
    (hf : ∀ w, w = 1 ∨ w = 2 → n = 0 ∨ n = w → HalfFits length w (x.half h) →
      HalfFits length w (y.half h)) : StreamMove length n x y := by
  refine ⟨fun h => absurd h hoff, hsound, fun g hg => ?_, fun g hg => ?_, fun w hwidth hn hx g => ?_⟩
    <;> rcases HalfId.eq_or_eq_other h g with rfl | rfl
  · exact absurd hg hxr
  · exact ho
  · exact absurd hg hyr
  · rwa [ho] at hg
  · exact hf w hwidth hn (hx _)
  · rw [ho]; exact hx _

/-- A change of the half being filled alone that leaves it FILLING. -/
theorem StreamMove.of_filling (hx : StreamState.Sound x) (hw : x.writer = .filling h)
    (hyw : y.writer = .filling h) (hst : (y.half h).state = .filling)
    (ho : y.half h.other = x.half h.other)
    (hf : ∀ w, w = 1 ∨ w = 2 → n = 0 ∨ n = w → HalfFits length w (x.half h) →
      HalfFits length w (y.half h)) : StreamMove length n x y := by
  obtain ⟨hfill, hother⟩ := (sound_filling hw).mp hx
  refine .of_half (by simp [hw]) (fun _ => ?_) (by simp [hfill]) (by simp [hst]) ho hf
  rw [sound_filling hyw, ho]
  exact ⟨hst, hother⟩

/-- The closing of a half, by the table of R75: `z` is the state with the words that fill it, `y` the state
with it closed. -/
theorem StreamMove.of_closed {r q : Ring} (hx : StreamState.Sound x) (hw : x.writer = .filling h)
    (ho : r.stream.half h.other = x.half h.other) (hc : HalfClosed r q h) (hlen : 128 ≤ length)
    (hf : ∀ w, w = 1 ∨ w = 2 → n = 0 ∨ n = w → HalvesFit length w x →
      (r.stream.half h).fill ≤ length / 2 ∧ (r.stream.half h).fill % w = 0
        ∧ (r.stream.half h).fill ≠ 0) : StreamMove length n x q.stream := by
  obtain ⟨hfill, hother⟩ := (sound_filling hw).mp hx
  obtain ⟨_, hclosed, hnext, _⟩ := hc
  have hfull : (q.stream.half h).state = .full := by rw [hclosed]
  have hcases : ((x.half h.other).state ≠ .reading ∧ (q.stream.half h.other).state = .filling
        ∧ (q.stream.half h.other).fill = 0 ∧ q.stream.writer = .filling h.other)
      ∨ (((x.half h.other).state = .full ∨ (x.half h.other).state = .reading)
        ∧ q.stream.half h.other = x.half h.other ∧ q.stream.writer = .stalled h.other) := by
    split at hnext
    · next hif =>
      obtain ⟨hb, hwr, _⟩ := hnext
      refine .inl ⟨fun hr => ?_, by rw [hb], by rw [hb], hwr⟩
      rcases hif with he | ⟨he, _⟩ <;> rw [ho, hr] at he <;> cases he
    · next hif =>
      obtain ⟨hb, hwr, _⟩ := hnext
      refine .inr ⟨?_, hb.trans ho, hwr⟩
      rw [not_or, ho] at hif
      cases hs : (x.half h.other).state with
      | empty => exact absurd hs hif.1
      | filling => exact absurd hs hother
      | full => exact .inl rfl
      | reading => exact .inr rfl
  refine ⟨fun hoff => by simp [hw] at hoff, fun _ => ?_, fun g hg => ?_, fun g hg => ?_,
    fun w hwidth hn hfits g => ?_⟩
  · rcases hcases with ⟨_, hs, _, hwr⟩ | ⟨hs, hb, hwr⟩
    · rw [sound_filling hwr, HalfId.other_other, hfull]; exact ⟨hs, by simp⟩
    · rw [sound_stalled hwr, HalfId.other_other, hfull, hb]; exact ⟨hs, by simp⟩
  · rcases HalfId.eq_or_eq_other h g with rfl | rfl
    · simp [hfill] at hg
    · rcases hcases with ⟨hs, _⟩ | ⟨_, hb, _⟩
      · exact absurd hg hs
      · exact hb
  · rcases HalfId.eq_or_eq_other h g with rfl | rfl
    · simp [hfull] at hg
    · rcases hcases with ⟨_, hs, _⟩ | ⟨_, hb, _⟩
      · simp [hs] at hg
      · rwa [hb] at hg
  · rcases HalfId.eq_or_eq_other h g with rfl | rfl
    · obtain ⟨hle, hmod, hne⟩ := hf w hwidth hn hfits
      have hsame : (q.stream.half g).fill = (r.stream.half g).fill := by rw [hclosed]
      rw [HalfFits, hsame, hfull]
      exact ⟨hle, hmod, fun h => (nomatch h), fun _ => hne⟩
    · rcases hcases with ⟨_, hs, hz, _⟩ | ⟨_, hb, _⟩
      · rw [HalfFits, hz, hs]
        refine ⟨Nat.zero_le _, Nat.zero_mod _, fun _ => by omega, ?_⟩
        rintro (hh | hh) <;> cases hh
      · rw [hb]; exact hfits _

end

end Sys2Proof

namespace Sys2Proof

open Sys2Proof.Machine

/-! #### STREAM rings (R74 to R79) -/

theorem RingGood.stream {r : Ring} (hr : RingGood r) (he : r.enabled = true) (hm : r.mode = .stream) :
    StreamState.Sound r.stream :=
  ((ringSound_stream he hm).mp hr.sound).1

theorem RingGood.snapshot {r : Ring} (hr : RingGood r) (he : r.enabled = true)
    (hm : r.mode = .snapshot) : SnapshotState.Sound r.snapshot :=
  ((ringSound_snapshot he hm).mp hr.sound).1

theorem RingGood.length_mod {r : Ring} (hr : RingGood r) : r.length % 64 = 0 := hr.range.2.1

theorem RingMove.refl (n : Nat) (r : Ring) : RingMove n r r :=
  ⟨rfl, fun _ => id, .refl _ _ _, .refl _ _⟩

theorem RingMove.of_stream {n : Nat} {r y : Ring} (hs : y.settings = r.settings)
    (hi : y.inbox = r.inbox) (hsnap : y.snapshot = r.snapshot)
    (hst : StreamMove r.length n r.stream y.stream) : RingMove n r y :=
  ⟨hs, fun _ h => hi ▸ h, hst, hsnap ▸ .refl _ _⟩

theorem RingMove.of_snapshot {n : Nat} {r y : Ring} (hs : y.settings = r.settings)
    (hi : y.inbox = r.inbox) (hst : y.stream = r.stream)
    (hsnap : SnapshotMove r.length r.snapshot y.snapshot) : RingMove n r y :=
  ⟨hs, fun _ h => hi ▸ h, hst ▸ .refl _ _ _, hsnap⟩

/-- What an operation does after an item has left the inbox, or a FREEZE its list. -/
theorem RingMove.after_leaving {n : Nat} {r y : Ring} {items : List StreamItem}
    {freezes : List (Fin 32)} (hi : ∀ item ∈ items, item ∈ r.inbox)
    (h : RingMove n { r with inbox := items, freezes := freezes } y) : RingMove n r y :=
  ⟨h.settings, fun item hitem => hi item (h.inbox item hitem), h.stream, h.snapshot⟩

theorem RingGood.leaving {r : Ring} (h : RingGood r) (items : List StreamItem)
    (freezes : List (Fin 32)) : RingGood { r with inbox := items, freezes := freezes } :=
  ⟨h.sound, h.range⟩

/-- A FILLING half that takes one item keeps to whole items and to half the range (R73). -/
theorem fill_add {length w n fill : Nat} (hlen : length % 64 = 0) (hw : w = 1 ∨ w = 2)
    (hn : n = 0 ∨ n = w) (hfill : fill < length / 2) (hmod : fill % w = 0) :
    fill + n ≤ length / 2 ∧ (fill + n) % w = 0 := by
  rcases hw with rfl | rfl <;> rcases hn with rfl | rfl <;> omega

/-- Closing a half that `n` words have just reached (R75): `z` is the ring with those words. -/
theorem closeHalf_move {n : Nat} {r z : Ring} {h : HalfId} (hr : RingGood r) (he : r.enabled = true)
    (hm : r.mode = .stream) (hw : r.stream.writer = .filling h) (hz : z = r.fillHalf h n)
    (hne : (r.stream.half h).fill + n ≠ 0) (k : Fin 8) (now : Nat) :
    RingMove n r (z.closeHalf k h now).1 := by
  have hsound := hr.stream he hm
  have hclosed := (z.closeHalf_spec k h now).1
  have hy := hclosed.1
  have hzh : z.stream.half h = { r.stream.half h with fill := (r.stream.half h).fill + n } := by
    rw [hz]; exact StreamState.half_setHalf_self _ _ _
  have hzo : z.stream.half h.other = r.stream.half h.other := by
    rw [hz]; exact StreamState.half_setHalf_other _ _ _
  refine .of_stream ((Ring.settings_closeHalf _ _ _ _).trans (by rw [hz]; rfl)) (by rw [hy, hz]; rfl)
    (by rw [hy, hz]; rfl) ?_
  refine .of_closed hsound hw hzo hclosed (hr.length_of_enabled he) fun w hwidth hn hfits => ?_
  obtain ⟨_, hmod, hlt, _⟩ := hfits h
  have hfill := ((sound_filling hw).mp hsound).1
  obtain ⟨hle, hmod'⟩ := fill_add hr.length_mod hwidth hn (hlt hfill) hmod
  rw [hzh]
  exact ⟨hle, hmod', hne⟩

theorem streamTakes_move {r : Ring} (hr : RingGood r) (he : r.enabled = true) (hm : r.mode = .stream)
    (k : Fin 8) (ws : List Int) (now : Nat) : RingMove ws.length r (r.streamTakes k ws now).1 := by
  simp only [Ring.streamTakes]
  split
  · exact .refl _ r
  · exact .of_inFlight rfl fun _ => id
  · next h hw =>
    have hsound := hr.stream he hm
    have hst := ((sound_filling hw).mp hsound).1
    have hfilled : ((r.fillHalf h ws.length).stream.half h)
        = { r.stream.half h with fill := (r.stream.half h).fill + ws.length } :=
      StreamState.half_setHalf_self _ _ _
    split
    · next hlt =>
      rw [hfilled] at hlt
      refine .of_stream rfl rfl rfl (.of_filling hsound hw
        ((StreamState.setHalf_writer _ _ _).trans hw) (by rw [hfilled]; exact hst)
        (StreamState.half_setHalf_other _ _ _) fun w hwidth hn hfits => ?_)
      obtain ⟨_, hmod, hbelow, _⟩ := hfits
      obtain ⟨hle, hmod'⟩ := fill_add hr.length_mod hwidth hn (hbelow hst) hmod
      rw [hfilled, HalfFits, hst]
      exact ⟨hle, hmod', fun _ => hlt, by simp⟩
    · next hge =>
      rw [hfilled] at hge
      have hlen := hr.length_of_enabled he
      exact closeHalf_move hr he hm hw rfl (by simp only [Ring.halfLength] at hge; omega) k now

theorem StreamState.release_move {r : Ring} (hr : RingGood r) (he : r.enabled = true)
    (hm : r.mode = .stream) {h : HalfId} (hf : (r.stream.half h).state = .full) :
    StreamMove r.length 0 r.stream (r.stream.release h) := by
  have hlen := hr.length_of_enabled he
  have hoff : r.stream.writer ≠ .off := fun hoff => by
    have := hr.stream he hm; simp [StreamState.Sound, hoff] at this
  by_cases hw : r.stream.writer = .stalled h
  · have heq : r.stream.release h = (r.stream.setHalf h Half.reset).beginFilling h := if_pos hw
    obtain ⟨hhalf, hother, hwriter, _⟩ :=
      (r.stream.setHalf h Half.reset).beginFilling_eq h
    rw [heq]
    have ho := hother.trans (StreamState.half_setHalf_other _ _ _)
    refine .of_half hoff (fun hs => ?_) (by simp [hf]) (by simp [hhalf]) ho fun w _ _ _ => ?_
    · rw [sound_filling hwriter, hhalf, ho]
      exact ⟨rfl, ((sound_stalled hw).mp hs).2⟩
    · rw [hhalf]
      exact ⟨Nat.zero_le _, Nat.zero_mod _, fun _ => by show 0 < r.length / 2; omega, by simp⟩
  · have heq : r.stream.release h = r.stream.setHalf h Half.reset := if_neg hw
    have hself := StreamState.half_setHalf_self r.stream h Half.reset
    have ho := StreamState.half_setHalf_other r.stream h Half.reset
    rw [heq]
    refine .of_half hoff (fun hs => ?_) (by simp [hf]) (by rw [hself]; exact nofun) ho fun w _ _ _ => ?_
    · cases hwr : r.stream.writer with
      | off => exact absurd hwr hoff
      | filling g =>
        obtain ⟨hg, _⟩ := (sound_filling hwr).mp hs
        rcases HalfId.eq_or_eq_other h g with rfl | rfl
        · simp [hf] at hg
        · rw [sound_filling (h := h.other) ((StreamState.setHalf_writer _ _ _).trans hwr), ho,
            HalfId.other_other, hself]
          exact ⟨hg, nofun⟩
      | stalled g =>
        obtain ⟨hg, _⟩ := (sound_stalled hwr).mp hs
        rcases HalfId.eq_or_eq_other h g with rfl | rfl
        · exact absurd hwr hw
        · rw [sound_stalled (h := h.other) ((StreamState.setHalf_writer _ _ _).trans hwr), ho,
            HalfId.other_other, hself]
          exact ⟨hg, nofun⟩
    · rw [hself]
      exact ⟨Nat.zero_le _, Nat.zero_mod _, nofun, by rintro (h | h) <;> cases h⟩

/-! #### SNAPSHOT rings (R82 to R88) -/

/-- A change of a snapshot that is not READING and does not become so. -/
theorem SnapshotMove.of_unread {length : Nat} {x y : SnapshotState} (hoff : x.state ≠ .off)
    (hx : x.state ≠ .reading) (hy : y.state ≠ .reading) (hsound : SnapshotState.Sound y)
    (hin : SnapshotState.InRange x length → SnapshotState.InRange y length) : SnapshotMove length x y :=
  ⟨fun h => absurd h hoff, fun _ => hsound, hin, fun h => absurd h hx, fun h => absurd h hy⟩

/-- The words a snapshot takes leave it within its range (R81, R82). -/
theorem SnapshotState.InRange.written {x : SnapshotState} {length : Nat} (hl : 0 < length)
    (h : SnapshotState.InRange x length) (n : Nat) :
    SnapshotState.InRange { x.written length n with remaining := x.remaining - n } length
      ∧ SnapshotState.InRange (x.written length n) length := by
  obtain ⟨_, hrem, _, hrec⟩ := h
  exact ⟨⟨Nat.min_le_right _ _, (Nat.sub_le _ _).trans hrem, .inr (Nat.mod_lt _ hl), hrec⟩,
    Nat.min_le_right _ _, hrem, .inr (Nat.mod_lt _ hl), hrec⟩

/-- A snapshot gone FROZEN is sound and within its range where it was within its range (R81, R85). -/
theorem goFrozen_sound (r : Ring) (k : Fin 8) (p : PendingTrigger) (now : Nat) :
    SnapshotState.Sound (r.goFrozen k p now).1.snapshot := by
  refine ⟨nofun, ?_, ?_⟩ <;> simp [Ring.goFrozen]

theorem goFrozen_inRange {r : Ring} {length : Nat} (h : SnapshotState.InRange r.snapshot length)
    (k : Fin 8) (p : PendingTrigger) (now : Nat) :
    SnapshotState.InRange (r.goFrozen k p now).1.snapshot length := by
  obtain ⟨hvalid, _, hpos, _⟩ := h
  refine ⟨hvalid, Nat.zero_le _, hpos, fun c hc => ?_⟩
  cases Option.some.inj hc
  exact ⟨hvalid, hpos⟩

theorem snapshotTakes_move {r : Ring} (hr : RingGood r) (he : r.enabled = true)
    (hm : r.mode = .snapshot) (k : Fin 8) (ws : List Int) (now : Nat) (n : Nat) :
    RingMove n r (r.snapshotTakes k ws now).1 := by
  have hlen : 0 < r.length := by have := hr.length_of_enabled he; omega
  obtain ⟨hoff, hpend, hrec⟩ := hr.snapshot he hm
  simp only [Ring.snapshotTakes]
  split
  · next _ hst =>
    refine .of_snapshot rfl rfl rfl (.of_unread hoff (by simp [hst]) (by simp [SnapshotState.written, hst])
      ⟨hoff, hpend, hrec⟩ fun h => (h.written hlen _).2)
  · next p hst hp =>
    have hnot : r.snapshot.state ≠ .reading := by simp [hst]
    split
    · exact .of_snapshot rfl rfl rfl (.of_unread hoff hnot nofun (goFrozen_sound _ k p now)
        fun h => goFrozen_inRange (h.written hlen _).1 k p now)
    · exact .of_snapshot rfl rfl rfl (.of_unread hoff hnot (by simp [SnapshotState.written, hst])
        ⟨hoff, hpend, hrec⟩ fun h => (h.written hlen _).1)
  · exact .refl _ r

theorem takeFreeze_move {r : Ring} (hr : RingGood r) (he : r.enabled = true) (hm : r.mode = .snapshot)
    (hst : r.snapshot.state = .run) (k : Fin 8) (t : Trigger) (now : Nat) :
    RingMove 0 r (r.takeFreeze k t now).1 := by
  obtain ⟨hoff, _, hrec⟩ := hr.snapshot he hm
  have hpost : r.postCount ≤ r.length := hr.range.2.2.2.2.1
  have hnot : r.snapshot.state ≠ .reading := by simp [hst]
  have hin : ∀ length, r.postCount ≤ length → SnapshotState.InRange r.snapshot length →
      SnapshotState.InRange { r.snapshot with
        state := .countdown, pending := some ⟨t, now⟩, remaining := r.postCount } length :=
    fun _ hle ⟨hvalid, _, hpos, hr⟩ => ⟨hvalid, hle, hpos, hr⟩
  simp only [Ring.takeFreeze]
  split
  · exact .of_snapshot rfl rfl rfl (.of_unread hoff hnot nofun (goFrozen_sound _ _ _ _)
      fun h => goFrozen_inRange (hin _ hpost h) _ _ _)
  · refine .of_snapshot rfl rfl rfl (.of_unread hoff hnot nofun ⟨nofun, by simp, ?_⟩ (hin _ hpost))
    rw [hst] at hrec
    simpa using hrec

theorem rearmed_move {r : Ring} (hst : r.snapshot.state = .frozen) :
    RingMove 0 r { r with snapshot := SnapshotState.begun } :=
  .of_snapshot rfl rfl rfl (.of_unread (by simp [hst]) (by simp [hst]) nofun
    ⟨nofun, by simp [SnapshotState.begun, SnapshotState.reset],
      by simp [SnapshotState.begun, SnapshotState.reset]⟩ fun _ => snapshotBegun_inRange _)

/-! #### Either mode -/

theorem takeWords_move {r : Ring} (hr : RingGood r) (k : Fin 8) (ws : List Int) (now : Nat) :
    RingMove ws.length r (r.takeWords k ws now).1 := by
  simp only [Ring.takeWords]
  split
  · next he =>
    split
    · next hm => exact streamTakes_move hr he hm k ws now
    · next hm => exact snapshotTakes_move hr he hm k ws now _
  · exact .refl _ r

/-- A mark sets a flag of the half being filled or of the ring (R77). -/
theorem StreamState.takeMark_move {r : Ring} (hr : RingGood r) (he : r.enabled = true)
    (hm : r.mode = .stream) : StreamMove r.length 0 r.stream r.stream.takeMark := by
  have hsound := hr.stream he hm
  simp only [StreamState.takeMark]
  split
  · exact .refl _ _ _
  · next h hw =>
    have hself := StreamState.half_setHalf_self r.stream h { r.stream.half h with gapped := true }
    refine .of_filling hsound hw ((StreamState.setHalf_writer _ _ _).trans hw) ?_
      (StreamState.half_setHalf_other _ _ _) fun w _ _ hfits => ?_
    · rw [hself]; exact ((sound_filling hw).mp hsound).1
    · rw [hself]; exact hfits
  · have hsame : ∀ g, ({ r.stream with heldMark := true } : StreamState).half g = r.stream.half g :=
      fun g => by cases g <;> rfl
    exact ⟨fun h => by simp_all, id, fun g _ => hsame g, fun g => by rw [hsame]; exact id,
      fun w _ _ h g => by rw [hsame]; exact h g⟩

/-- A mark sets a flag of the snapshot (R87). -/
theorem SnapshotState.takeMark_move (length : Nat) (x : SnapshotState) :
    SnapshotMove length x x.takeMark := by
  simp only [SnapshotState.takeMark]
  split
  · next h => exact ⟨fun _ => by simp_all, id, id, fun _ => by simp_all, id⟩
  · next h => exact ⟨fun _ => by simp_all, id, id, fun _ => by simp_all, id⟩
  · exact .refl _ _

theorem takeMark_move {r : Ring} (hr : RingGood r) : RingMove 0 r r.takeMark := by
  simp only [Ring.takeMark]
  split
  · next he =>
    split
    · next hm => exact .of_stream rfl rfl rfl (StreamState.takeMark_move hr he hm)
    · exact .of_snapshot rfl rfl rfl (SnapshotState.takeMark_move _ _)
  · exact .refl _ r

end Sys2Proof

namespace Sys2Proof

open Sys2Proof.Machine

/-! ### What one command can do to the rings, capture memory and the claim -/

/-- Every ring is as it was but for what is in flight to it, and every new item in flight gives the words
of the ring's source (R71). -/
def RingsOffered (width : Ring → Nat) (x y : Table Ring 8) : Prop := ∀ k,
  y.get k = { x.get k with inbox := (y.get k).inbox, freezes := (y.get k).freezes }
  ∧ ∀ item ∈ (y.get k).inbox, item ∈ (x.get k).inbox ∨ GivesWords (width (x.get k)) item

/-- What one command can do, where sources give items of some widths (chapters 4 and 5): items and FREEZEs
come and go and the memory stays or is cleared; one ring takes an item, a mark or a request; a part is
claimed; the claimed part is given back; the rings restart. -/
inductive CaptureMove (width : Ring → Nat) (x : Capture) : Capture → Prop
  | inFlight {y : Capture} (hr : RingsOffered width x.rings y.rings)
      (hm : y.memory = x.memory ∨ y.memory = ⟨[]⟩) (hc : y.claim = x.claim) : CaptureMove width x y
  | moved {y : Capture} (k : Fin 8) (z : Ring) (n : Nat) (ws : List (Nat × Int))
      (hz : RingGood (x.rings.get k) → RingMove n (x.rings.get k) z)
      (hn : n = 0 ∨ ∃ item ∈ (x.rings.get k).inbox, n = item.words.length)
      (hws : ∀ w ∈ ws, w.1 < Config.captureWords)
      (hy : y = ⟨x.rings.set k z, x.memory.writeAll ws, x.claim⟩) : CaptureMove width x y
  | claimed {y : Capture} (k : Fin 8) (part : RingPart) (hfree : x.claim = none)
      (hen : (x.rings.get k).enabled = true) (hfits : part.fits (x.rings.get k).mode = true)
      (hready : (x.rings.get k).partReady part = true)
      (hy : y = ⟨x.rings.set k ((x.rings.get k).claimPart part), x.memory,
        some ⟨k, part, (x.rings.get k).partWords part, (x.rings.get k).partStart part⟩⟩) :
      CaptureMove width x y
  | gave {y : Capture} (c : Claim) (done : Bool) (hc : x.claim = some c)
      (hy : y = ⟨x.rings.set c.ring ((x.rings.get c.ring).givePart c.part done), x.memory, none⟩) :
      CaptureMove width x y
  | restarted {y : Capture} (hy : y = ⟨x.rings.map Ring.restarted, x.memory, none⟩) :
      CaptureMove width x y

/-- What a command that leads from one state to another does to capture. -/
abbrev Moves (s t : State) : Prop := CaptureMove (itemWidth s) s.capture t.capture

theorem RingsOffered.refl (width : Ring → Nat) (x : Table Ring 8) : RingsOffered width x x :=
  fun _ => ⟨rfl, fun _ h => .inl h⟩

theorem Moves.of_offered {s t : State} (hr : RingsOffered (itemWidth s) s.rings t.rings)
    (hm : t.memory = s.memory) (hc : t.claim = s.claim) : Moves s t :=
  .inFlight hr (.inl hm) hc

theorem Moves.of_eq {s t : State} (h : t.capture = s.capture) : Moves s t := by
  rw [Moves, h]
  exact .inFlight (.refl _ _) (.inl rfl) rfl

theorem Moves.refl (s : State) : Moves s s := .of_eq rfl

theorem Moves.then_eq {s t u : State} (h : Moves s t) (he : u.capture = t.capture) : Moves s u := by
  rw [Moves, he]; exact h

/-- What a move starts from, as far as it concerns a move. -/
theorem Moves.of_start {s t u : State} (h : Moves t u) (hc : t.capture = s.capture)
    (hw : itemWidth t = itemWidth s) : Moves s u := by
  rw [Moves, ← hc, ← hw]; exact h

/-- One ring alone is moved, and it writes no word. -/
theorem Moves.of_setRing {s : State} {k : Fin 8} {y : Ring}
    (h : RingGood (s.rings.get k) → RingMove 0 (s.rings.get k) y) : Moves s (s.setRing k y) :=
  .moved k y 0 [] h (.inl rfl) (by simp) rfl

/-! #### Offers (R16, R34) -/

section
variable {width : Ring → Nat} {x : Table Ring 8} {u : State} (h : RingsOffered width x u.rings)
include h

theorem RingsOffered.offer {src : Source} {item : StreamItem}
    (hi : ∀ r : Ring, r.source = some src → GivesWords (width r) item) :
    RingsOffered width x (u.offer src item).rings := by
  intro k
  obtain ⟨hk, hitems⟩ := h k
  rw [State.rings_offer]
  refine ⟨by rw [hk], fun a ha => ?_⟩
  dsimp only at ha
  split at ha
  · next hnames =>
    rcases List.mem_append.mp ha with ha | ha
    · exact hitems a ha
    · rw [List.mem_singleton.mp ha]
      refine .inr (hi _ ?_)
      rw [hk] at hnames
      exact of_decide_eq_true hnames
  · exact hitems a ha

theorem RingsOffered.passBy (p : Source → Bool) : RingsOffered width x (u.passBy p).rings := by
  intro k
  obtain ⟨hk, hitems⟩ := h k
  rw [State.rings_passBy]
  refine ⟨by rw [hk], fun a ha => ?_⟩
  dsimp only at ha
  split at ha
  · cases ha
  · exact hitems a ha

theorem RingsOffered.placeMarks (p : Channel → Bool) : RingsOffered width x (u.placeMarks p).rings := by
  refine List.foldlRecOn (motive := fun v : State => RingsOffered width x v.rings) _ _ h
    fun v hv c _ => ?_
  split
  · exact RingsOffered.offer hv fun _ _ => .inl rfl
  · exact hv

theorem RingsOffered.trackNode (n : Fin 30) (q : Nat) : RingsOffered width x (u.trackNode n q).rings := by
  simp only [State.trackNode]
  split
  · exact h
  · refine RingsOffered.placeMarks (u := State.requestEvent _ _) ?_ _
    exact h

variable (hw : ∀ (r : Ring) (c : Fin 64), r.source = some (.channel c) → width r = 1)
include hw

theorem RingsOffered.takeEntries (node : Nat) (es : List SampleEntry) :
    RingsOffered width x (u.takeEntries node es).1.rings := by
  induction es generalizing u with
  | nil => exact h
  | cons e es ih =>
    refine ih (u := (u.takeEntry node e).1) ?_
    simp only [State.takeEntry]
    split
    · exact RingsOffered.offer (u := State.setChannel _ _ _) h fun r hr => .inr (hw r _ hr).symm
    · exact h

end

theorem itemWidth_channel (s : State) (r : Ring) (c : Fin 64) (h : r.source = some (.channel c)) :
    itemWidth s r = 1 := by
  rw [itemWidth, h]

/-- An output record gives the words of its slot's mode (R30 to R32, R71). -/
theorem givesWords_outputRecord {s : State} {r : Ring} {k : Fin 16} (h : r.source = some (.slot k))
    {x : Slot} (hx : x.mode = (s.slots.get k).mode) (w : Window) (now : Nat) :
    GivesWords (itemWidth s r) (.record (x.outputRecord k w now)) := by
  refine .inr ?_
  rw [itemWidth, h]
  simp only [StreamItem.words, Slot.outputRecord, Window.output, ← hx]
  cases x.mode <;> rfl

/-- Offers that reach no slot's mode: a slot's item to its consumers (R34). -/
theorem Moves.offerNext {s u : State} {k : Fin 16} {item : StreamItem} (hu : u.capture = s.capture)
    (hi : ∀ r : Ring, r.source = some (.slot k) → GivesWords (itemWidth s r) item) :
    Moves s (u.offerNext k item) := by
  obtain ⟨hrings, hmem, hclaim⟩ := Capture.mk.inj hu
  refine .of_offered ?_ hmem hclaim
  refine RingsOffered.offer (RingsOffered.passBy ?_ _) hi
  rw [hrings]
  exact .refl _ _

theorem Moves.takeSampleFrame {s u : State} (hu : u.capture = s.capture) (bytes : List Byte) :
    Moves s (u.takeSampleFrame bytes) := by
  obtain ⟨hrings, hmem, hclaim⟩ := Capture.mk.inj hu
  simp only [State.takeSampleFrame]
  split
  · next f n _ _ =>
    split_ifs
    · exact .of_eq hu
    · exact .of_eq hu
    · have ho := (processed_onlyOffered u n f).rest
      rw [handCandidate_eq]
      refine .of_offered (t := (u.processed n f).1) ?_ (by rw [ho]; exact hmem)
        (by rw [ho]; exact hclaim)
      refine RingsOffered.takeEntries (RingsOffered.trackNode (RingsOffered.passBy ?_ _) _ _)
        (itemWidth_channel s) _ _
      rw [hrings]
      exact .refl _ _
  · exact .of_eq hu

theorem Moves.slotTakesSample {s : State} (k : Fin 16) {x : Slot} (hx : x.mode = (s.slots.get k).mode)
    (v : Int) (i : Nat) : Moves s (s.slotTakesSample k x v i) := by
  have hrecord : ∀ y r, x.takeSample k v i s.timebase = (y, some r) →
      ∃ w, r = x.outputRecord k w s.timebase := by
    intro y r h
    simp only [Slot.takeSample] at h
    split at h
    · split at h <;> cases h
      exact ⟨_, rfl⟩
    · cases h
    · cases h
  simp only [State.slotTakesSample]
  split
  · exact .refl s
  · next y r he =>
    obtain ⟨w, rfl⟩ := hrecord y r he
    have hmove : Moves s ((s.setSlot k y).offerNext k (.record (x.outputRecord k w s.timebase))) :=
      Moves.offerNext rfl fun q hq => givesWords_outputRecord hq hx w _
    simp only [State.deliverOutput]
    split
    · exact hmove.then_eq rfl
    · exact hmove

theorem Moves.slotTakesMark (s : State) (k : Fin 16) (x : Slot) : Moves s (s.slotTakesMark k x) := by
  simp only [State.slotTakesMark]
  split
  · exact .refl s
  · split
    · exact Moves.offerNext rfl fun _ _ => .inl rfl
    · exact Moves.offerNext rfl fun _ _ => .inl rfl

/-! #### Rules (R36, R53, R83) -/

/-- A rule's actions reach the rings by a FREEZE in flight to its target (R54, R56). -/
theorem Moves.ruleAsserts (s : State) (k : Fin 32) (r : Rule) (v : Int) (i : Nat) :
    Moves s (s.ruleAsserts k r v i) := by
  simp only [State.ruleAsserts]
  generalize hu : (if r.eventOnAssert = true then _ else _ : State) = u
  have hsame : u.capture = s.capture := by rw [← hu]; split <;> rfl
  obtain ⟨hrings, hmem, hclaim⟩ := Capture.mk.inj hsame
  refine Moves.then_eq (t := u.sendFreeze k r.freezeRing) ?_ (by cases r.startSlot <;> rfl)
  cases r.freezeRing with
  | none => exact .of_eq hsame
  | some g =>
    refine Moves.then_eq (t := s.setRing g { s.rings.get g with
      freezes := (s.rings.get g).freezes ++ [k] }) ?_ ?_
    · exact .of_setRing fun _ => .of_inFlight rfl fun _ => id
    · simp only [State.capture, State.sendFreeze, State.setRing, hrings]
      exact Capture.mk.injEq .. ▸ ⟨rfl, hmem, hclaim⟩

theorem Moves.ruleTakesValue (s : State) (k : Fin 32) (r : Rule) (v : Int) (i : Nat) :
    Moves s (s.ruleTakesValue k r v i) := by
  simp only [State.ruleTakesValue]
  split
  · split
    · exact .refl s
    · exact .ruleAsserts s k _ v i
    · simp only [State.ruleReleases]
      split <;> exact .refl s
  · exact .refl s

/-! #### The rings (R71 to R88) -/

/-- One ring taken from its place, changed and put back, with requests for the event unit. -/
theorem Moves.of_ring {s t : State} {k : Fin 8} {y : Ring}
    (hy : RingGood (s.rings.get k) → RingMove 0 (s.rings.get k) y)
    (ht : t.capture = (s.setRing k y).capture) : Moves s t :=
  (Moves.of_setRing hy).then_eq ht

theorem Moves.execRingTakeItem {s t : State} {k : Fin 8} (h : execRingTakeItem k s = .next t) :
    Moves s t := by
  simp only [Machine.execRingTakeItem] at h
  split at h
  · cases h; exact .refl s
  · cases h; exact .refl s
  · next item items _ hinbox =>
    obtain ⟨hws, rfl⟩ := State.ringTakesWords_eq_some (captureOutcome_eq_next.mp h)
    refine .moved k _ item.words.length _ (fun hr => ?_)
      (.inr ⟨item, hinbox ▸ List.mem_cons_self, rfl⟩) hws rfl
    exact (takeWords_move (hr.leaving items (s.rings.get k).freezes) k _ _).after_leaving
      fun a ha => hinbox ▸ List.mem_cons_of_mem _ ha

theorem Moves.execRingTakeGapMark {s t : State} {k : Fin 8} (h : execRingTakeGapMark k s = .next t) :
    Moves s t := by
  simp only [Machine.execRingTakeGapMark] at h
  split at h
  · next items hinbox =>
    cases h
    exact .of_setRing fun hr => (takeMark_move (hr.leaving items (s.rings.get k).freezes)).after_leaving
      fun a ha => hinbox ▸ List.mem_cons_of_mem _ ha
  · cases h; exact .refl s

theorem Moves.ringTakesFreeze {s : State} {k : Fin 8} {freezes : List (Fin 32)} (t : Trigger) :
    Moves s (s.ringTakesFreeze k { s.rings.get k with freezes := freezes } t) := by
  simp only [State.ringTakesFreeze]
  split
  · next hc =>
    obtain ⟨he, hm, hst⟩ := hc
    exact .of_ring (fun hr => (takeFreeze_move (hr.leaving _ freezes) he hm hst k t s.timebase).after_leaving
      fun _ => id) rfl
  · exact .of_setRing fun _ => .of_inFlight rfl fun _ => id

theorem Moves.execRingFreeze {s t : State} {k : Fin 8} {rule : Fin 32}
    (h : execRingFreeze k rule s = .next t) : Moves s t := by
  simp only [Machine.execRingFreeze] at h
  split at h <;> cases h
  · exact .ringTakesFreeze _
  · exact .refl s

theorem RingMode.eq_stream {m : RingMode} (h : m ≠ .snapshot) : m = .stream := by
  cases m
  · rfl
  · exact absurd rfl h

theorem Moves.releaseHalf (s : State) (k : Fin 8) (h : HalfId) : Moves s (s.releaseHalf k h).2 := by
  simp only [State.releaseHalf]
  split_ifs with he hm
  · exact .refl s
  · exact .refl s
  · split
    · exact .refl s
    · exact .refl s
    · exact .refl s
    · next hst =>
      refine .of_setRing fun hr => .of_stream rfl rfl rfl (StreamState.release_move hr ?_
        (RingMode.eq_stream hm) hst)
      simpa using he

theorem Moves.flushRing (s : State) (k : Fin 8) : Moves s (s.flushRing k).2 := by
  simp only [State.flushRing]
  split_ifs with he hm
  · exact .refl s
  · exact .refl s
  · split
    · next h hw =>
      split
      · exact .refl s
      · next hfill =>
        refine .of_ring (fun hr => closeHalf_move (n := 0) hr ?_ (RingMode.eq_stream hm) hw ?_ hfill k
          s.timebase) rfl
        · simpa using he
        · cases h <;> rfl
    · exact .refl s

theorem Moves.freezeRing (s : State) (k : Fin 8) : Moves s (s.freezeRing k).2 := by
  simp only [State.freezeRing]
  split_ifs
  · exact .refl s
  · exact .refl s
  · exact .refl s
  · exact .ringTakesFreeze (freezes := (s.rings.get k).freezes) _

theorem Moves.rearmRing (s : State) (k : Fin 8) : Moves s (s.rearmRing k).2 := by
  simp only [State.rearmRing]
  split_ifs
  · exact .refl s
  · exact .refl s
  · split
    · exact .refl s
    · next hst => exact .of_setRing fun _ => rearmed_move hst
    · exact .refl s

/-! #### The readout engine (R94 to R104) -/

theorem capture_placeTerminator (s : State) : s.placeTerminator.capture = s.capture := by
  rcases s.placeTerminator_cases with h | ⟨x, he, _, _, _, h⟩ <;> rw [h]
  simp only [State.capture, State.claim, he]
  rfl

theorem capture_produceOne {s t : State} (h : s.produceOne = some t) : t.capture = s.capture := by
  rcases State.produceOne_cases h with rfl | ⟨x, he, _, _, _, _, rfl⟩
  · rfl
  · simp only [State.capture, State.claim, he]
    rfl

theorem capture_examineEngine {s t : State} (h : s.examineEngine = some t) : t.capture = s.capture :=
  State.examineEngine_keeps (P := fun u => u.capture = s.capture)
    (fun u hu => (capture_placeTerminator u).trans hu)
    (fun _ _ hu h => (capture_produceOne h).trans hu) rfl h

theorem Moves.engineGranted (s : State) (f : ReadoutFrame) : Moves s (s.engineGranted f) := by
  simp only [State.engineGranted]
  split
  · next x he =>
    split
    · exact .gave x.claim true (claim_of_sending he) rfl
    · refine .of_eq ?_
      simp only [State.capture, State.claim, he]
      rfl
  · next he =>
    refine .of_eq ?_
    split
    · simp only [State.capture, State.claim, he]
      rfl
    · rfl
  · exact .refl s

theorem Moves.readoutLinkLost (s : State) : Moves s s.readoutLinkLost := by
  simp only [State.readoutLinkLost]
  split
  · next x he => exact .gave x.claim false (claim_of_sending he) rfl
  · next he =>
    refine .of_eq ?_
    simp only [State.capture, State.claim, he]
    rfl
  · exact .refl s

theorem Moves.abortReadout {s : State} {x : ReadoutRecord} (he : s.readout.engine = .sending x) :
    Moves s (s.abortReadout x) := by
  simp only [State.abortReadout]
  exact Moves.then_eq (.gave x.claim false (claim_of_sending he) rfl) (capture_placeTerminator _)

theorem Moves.grant {s t : State} {c : Claimant} (h : s.grant c = some t) : Moves s t := by
  cases c with
  | mr => cases h; simp only [State.grantMr]; split <;> exact .refl s
  | ev => cases h; exact .refl s
  | fw => cases h; simp only [State.grantFw]; split <;> exact .refl s
  | dt =>
    simp only [State.grant, State.grantDt] at h
    split at h
    · split at h
      · next f _ =>
        have hcapture := capture_examineEngine h
        refine Moves.then_eq ?_ hcapture
        exact (Moves.engineGranted _ f).of_start rfl rfl
      · have hcapture := capture_examineEngine h
        exact .of_eq (hcapture.trans rfl)
    · cases h; exact .refl s

/-- An accepted READ_RING claims a part that is ready, of an enabled ring of the part's mode (R93, R94). -/
theorem Moves.acceptReadout {s : State} {k : Fin 8} {part : RingPart}
    (hst : s.readRingStatus k part = .accepted) : Moves s (s.acceptReadout k part) := by
  simp only [State.readRingStatus] at hst
  split_ifs at hst with hfree he hfits hready
  have he : (s.rings.get k).enabled = true := by simpa using he
  have hfits : part.fits (s.rings.get k).mode = true := by simpa using hfits
  have hready : (s.rings.get k).partReady part = true := by simpa using hready
  refine .claimed k part ?_ he hfits hready rfl
  have hfree : s.readout.engine = .free := not_not.mp hfree
  simp only [State.capture, State.claim, hfree]
  rfl

theorem Moves.readRing {s u : State} {k : Fin 8} {part : RingPart} {status : Status}
    {results : List Byte} (h : s.readRing k part = some (status, results, u)) : Moves s u := by
  simp only [State.readRing] at h
  split at h
  · next hst =>
    obtain ⟨v, hv, heq⟩ := Option.map_eq_some_iff.mp h
    cases heq
    exact (Moves.acceptReadout hst).then_eq (capture_examineEngine hv)
  · cases h; exact .refl s

/-! #### Requests (R128 to R131) -/

/-- A reply reaches no ring. -/
theorem Moves.request {s t : State} {code : Nat} {run : List Byte → State → Option Answer}
    (h : s.request code run = .next t)
    (hr : ∀ args status results u, run args s = some (status, results, u) → Moves s u) : Moves s t := by
  rcases State.request_next h with rfl | ⟨q, r, _, rfl⟩ | ⟨q, status, results, u, hu, rfl⟩
  · exact .refl t
  · rw [repliedOnly_eq]; exact .refl s
  · rw [answered_eq]; exact (hr _ _ _ _ hu).then_eq rfl

theorem Moves.gather {s t : State} {code : Nat} {blocks : List Block}
    {work : Block → State → State} {answer : State → Answer}
    (h : s.gather code blocks work answer = .next t) (hw : ∀ b, Moves s (work b s))
    (ha : Moves s (answer s).2.2) : Moves s t := by
  rcases State.gather_next h with rfl | ⟨q, r, _, rfl⟩ | ⟨b, rfl⟩ | ⟨q, rfl⟩
  · exact .refl t
  · rw [repliedOnly_eq]; exact .refl s
  · exact (hw b).then_eq rfl
  · rw [answered_eq]; exact ha.then_eq rfl

theorem Moves.atIndex {n : Nat} {s u : State} {op : Fin n → Status × State} {i : Option (Fin n)}
    {status : Status} {results : List Byte}
    (h : some (bare (atIndex i s op)) = some (status, results, u)) (ho : ∀ k, Moves s (op k).2) :
    Moves s u := by
  cases h
  exact atIndex_keeps (P := Moves s) (.refl s) ho

theorem Moves.restartShare (s : State) (b : Block) : Moves s (s.restartShare b) := by
  cases b with
  | capture => exact .restarted rfl
  | _ => exact .refl s

end Sys2Proof

namespace Sys2Proof

open Sys2Proof.Machine

/-! #### The ports, the queues and the management unit reach no ring -/

@[simp] theorem capture_setPort (s : State) (p : PortId) (x : Port) :
    (s.setPort p x).capture = s.capture := by
  cases p <;> rfl

@[simp] theorem capture_chargeMalformed (s : State) (p : PortId) :
    (s.chargeMalformed p).capture = s.capture :=
  capture_setPort _ _ _

@[simp] theorem capture_enterUp (s : State) (p : PortId) : (s.enterUp p).capture = s.capture := by
  cases p <;> rfl

@[simp] theorem capture_leaveUp (s : State) (p : PortId) : (s.leaveUp p).capture = s.capture := by
  cases p <;> rfl

@[simp] theorem capture_receiveFlow (s : State) (p : PortId) (paused : Bool) :
    (s.receiveFlow p paused).capture = s.capture := by
  simp only [State.receiveFlow]
  split
  · simp
  · split <;> simp
  · rfl

@[simp] theorem capture_placeOb (s : State) (bytes : List Byte) :
    (s.placeOb bytes).capture = s.capture := by
  rcases s.placeOb_cases bytes with ⟨_, h⟩ | ⟨_, h⟩ <;> rw [h] <;> rfl

@[simp] theorem capture_arriveRequest (s : State) (payload : List Byte) :
    (s.arriveRequest payload).capture = s.capture := by
  rcases s.arriveRequest_cases payload with ⟨_, h⟩ | ⟨_, _, h⟩ | ⟨_, _, h⟩ <;> rw [h] <;> rfl

@[simp] theorem capture_handOn (s : State) (p : PortId) (bytes : List Byte) :
    (s.handOn p bytes).capture = s.capture := by
  cases p with
  | f => simp only [State.handOn]; split <;> rfl
  | c => simp only [State.handOn]; split_ifs <;> simp

@[simp] theorem capture_takeFrame (s : State) (p : PortId) (bytes : List Byte) :
    (s.takeFrame p bytes).capture = s.capture := by
  simp only [State.takeFrame]
  split_ifs <;> simp

@[simp] theorem capture_offerFw (s : State) (bytes : List Byte) :
    (s.offerFw bytes).capture = s.capture := by
  rcases s.offerFw_cases bytes with ⟨_, h⟩ | ⟨_, _, h⟩ | ⟨_, _, h⟩ <;> rw [h] <;> rfl

@[simp] theorem capture_closeReduced (s : State) (records : List OutputRecord) :
    (s.closeReduced records).capture = s.capture := by
  rcases s.closeReduced_cases records with ⟨_, h⟩ | ⟨_, h⟩ <;> rw [h] <;> rfl

@[simp] theorem capture_assemble (s : State) (r : OutputRecord) :
    (s.assemble r).capture = s.capture := by
  simp only [State.assemble]
  split_ifs
  · rfl
  · exact capture_closeReduced _ _
  · rfl
  · rfl

/-- A command that leaves the rings, the memory and the claim as they are. -/
theorem Moves.of_eq_next {s t u : State} (h : Host.Outcome.next (φ := Fault) (ρ := Refusal) u = .next t)
    (hu : u.capture = s.capture) : Moves s t := by
  cases h; exact .of_eq hu

/-- Gap marks in the channels' streams, behind what has passed by (R20, R21, R25). -/
theorem Moves.markChannels (s : State) (p : Channel → Bool) :
    Moves s ((s.passBy Source.isChannel).placeMarks p).unseeNodes := by
  have ho := ((State.passBy_onlyOffered s Source.isChannel).trans
    (State.placeMarks_onlyOffered _ p)).rest
  have hrings := RingsOffered.placeMarks (RingsOffered.passBy (u := s)
    (.refl (itemWidth s) s.rings) Source.isChannel) p
  generalize (s.passBy Source.isChannel).placeMarks p = u at ho hrings ⊢
  exact .of_offered hrings (by rw [ho]; rfl) (by rw [ho]; rfl)

/-- Every command that changes no setting makes one of the moves. -/
theorem exec_moves {i : Instr} {s t : State} (hi : changesSettings i = false)
    (h : exec i s = .next t) : Moves s t := by
  cases i with
  | hardReset | writeEntry | enable | disable => cases hi
  | initialisationComplete =>
    simp only [exec, execInitialisationComplete] at h
    split at h <;> cases h
    · exact .inFlight (.refl _ _) (.inr rfl) rfl
    · exact .refl _
  | receiveTrain p heard =>
    simp only [exec, execReceiveTrain] at h
    split at h
    · exact .of_eq_next h rfl
    · split at h <;> exact .of_eq_next h (by simp)
    · split at h <;> exact .of_eq_next h (by simp)
  | undecodableSymbol p =>
    simp only [exec, execUndecodableSymbol] at h
    split at h <;> exact .of_eq_next h (by simp)
  | receiveHold p => exact .of_eq_next h (by simp)
  | receiveGo p => exact .of_eq_next h (by simp)
  | lossOfLock p =>
    simp only [exec, execLossOfLock] at h
    split at h <;> exact .of_eq_next h (by simp)
  | frameReceived p bytes =>
    simp only [exec, execFrameReceived] at h
    split at h <;> exact .of_eq_next h (by simp)
  | holdSentChange p =>
    simp only [exec, execHoldSentChange] at h
    split at h <;> exact .of_eq_next h (by simp)
  | flowSymbolRepeat p =>
    simp only [exec, execFlowSymbolRepeat] at h
    split at h <;> exact .of_eq_next h (by simp)
  | frameSendComplete p =>
    simp only [exec, execFrameSendComplete] at h
    split at h <;> exact .of_eq_next h (by simp)
  | sampleFrameTaken =>
    simp only [exec, execSampleFrameTaken] at h
    split at h <;> cases h
    · next items _ => exact .takeSampleFrame (u := s.setInbox items) rfl _
    · exact .refl _
  | fPortLeavingUpClassifier =>
    simp only [exec, execFPortLeavingUpClassifier] at h
    split at h <;> obtain rfl := Host.Outcome.next.inj h
    · next items _ => exact (Moves.markChannels (s.setInbox items) _).of_start (s := s) rfl rfl
    · exact .refl s
  | fwPlace way =>
    cases way <;> simp only [exec, execFwPlace] at h
    · split at h
      · exact .of_eq_next h ((capture_offerFw _ _).trans rfl)
      · exact .of_eq_next h rfl
    · split at h
      · split at h
        · exact .of_eq_next h ((capture_offerFw _ _).trans rfl)
        · exact .of_eq_next h rfl
      · exact .of_eq_next h rfl
  | slotTakeSample k =>
    simp only [exec, execSlotTakeSample] at h
    split at h <;> cases h
    · refine .slotTakesSample k ?_ _ _
      rfl
    · exact .refl _
  | slotTakeGapMark k =>
    simp only [exec, execSlotTakeGapMark] at h
    split at h <;> cases h
    · exact .slotTakesMark s k _
    · exact .refl _
  | slotStart k =>
    simp only [exec, execSlotStart] at h
    split at h <;> exact .of_eq_next h rfl
  | ruleTakeValue k =>
    simp only [exec, execRuleTakeValue] at h
    split at h
    · exact .of_eq_next h rfl
    · split at h <;> cases h
      · exact .ruleTakesValue s k _ _ _
      · exact .refl _
  | ruleTakeGapMark k =>
    simp only [exec, execRuleTakeGapMark] at h
    split at h <;> exact .of_eq_next h rfl
  | ringTakeItem k => exact .execRingTakeItem h
  | ringTakeGapMark k => exact .execRingTakeGapMark h
  | ringFreeze k rule => exact .execRingFreeze h
  | assemblerTakeRecord k =>
    simp only [exec, execAssemblerTakeRecord] at h
    split at h
    · exact .of_eq_next h ((capture_assemble _ _).trans rfl)
    · exact .of_eq_next h rfl
  | reducedHoldExpiry =>
    simp only [exec, execReducedHoldExpiry] at h
    split at h
    · exact .of_eq_next h (capture_closeReduced _ _)
    · exact .of_eq_next h rfl
  | eventEnqueue r =>
    simp only [exec, execEventEnqueue] at h
    split at h <;> exact .of_eq_next h rfl
  | retransmitTimeout =>
    simp only [exec, execRetransmitTimeout] at h
    split at h <;> exact .of_eq_next h rfl
  | deliverySuspend =>
    simp only [exec, execDeliverySuspend] at h
    split at h <;> exact .of_eq_next h rfl
  | deliveryResume =>
    simp only [exec, execDeliveryResume] at h
    split at h <;> exact .of_eq_next h rfl
  | arbiterGrant =>
    simp only [exec, execArbiterGrant] at h
    split at h
    · split at h
      · exact .grant (captureOutcome_eq_next.mp h)
      · exact .of_eq_next h rfl
    · exact .of_eq_next h rfl
  | readoutFrameProduce => exact .of_eq (capture_produceOne (captureOutcome_eq_next.mp h))
  | terminatingFramePlace => exact .of_eq_next h (capture_placeTerminator s)
  | obSend =>
    simp only [exec, execObSend] at h
    split at h
    · split at h <;> exact .of_eq_next h rfl
    · exact .of_eq_next h rfl
  | cPortLeavingUpEgress =>
    simp only [exec, execCPortLeavingUpEgress] at h
    split at h <;> cases h
    · next xs _ =>
      have hlost := Moves.readoutLinkLost { s with egress := { s.egress with cChanges := xs } }
      exact (hlost.of_start (s := s) rfl rfl).then_eq rfl
    · exact .refl _
  | cPortComingUpEgress =>
    simp only [exec, execCPortComingUpEgress] at h
    split at h
    · split at h
      · have hcapture := capture_examineEngine (captureOutcome_eq_next.mp h)
        exact .of_eq (hcapture.trans rfl)
      · exact .of_eq_next h rfl
    · exact .of_eq_next h rfl
  | fPortLeavingUpEgress =>
    simp only [exec, execFPortLeavingUpEgress] at h
    split at h <;> exact .of_eq_next h rfl
  | ident =>
    simp only [exec, execIdent] at h
    exact .request h fun _ _ _ _ hu => by cases hu; exact .refl s
  | readEntry =>
    simp only [exec, execReadEntry] at h
    refine .request h fun args _ _ u hu => ?_
    split at hu <;> cases hu <;> exact .refl s
  | readStatus =>
    simp only [exec, execReadStatus] at h
    exact .gather h (fun b => by cases b <;> exact .refl s) (.refl s)
  | clearCounters =>
    simp only [exec, execClearCounters] at h
    exact .gather h (fun b => by cases b <;> exact .refl s) (.refl s)
  | setTime =>
    simp only [exec, execSetTime] at h
    exact .request h fun _ _ _ _ hu => by cases hu; exact .refl s
  | readRing =>
    simp only [exec, execReadRing] at h
    refine .request h fun args _ _ u hu => ?_
    split at hu
    · exact .readRing hu
    · cases hu; exact .refl s
  | abortRead =>
    simp only [exec, execAbortRead] at h
    refine .request h fun args _ _ u hu => ?_
    split at hu <;> cases hu
    · next x he => exact .abortReadout he
    · exact .refl s
  | releaseHalf =>
    simp only [exec, execReleaseHalf] at h
    refine .request h fun args _ _ u hu => ?_
    split at hu <;> cases hu
    · exact .releaseHalf s _ _
    · exact .refl s
  | flushRing =>
    simp only [exec, execFlushRing] at h
    exact .request h fun _ _ _ _ hu => .atIndex hu (.flushRing s)
  | freezeRing =>
    simp only [exec, execFreezeRing] at h
    exact .request h fun _ _ _ _ hu => .atIndex hu (.freezeRing s)
  | rearmRing =>
    simp only [exec, execRearmRing] at h
    exact .request h fun _ _ _ _ hu => .atIndex hu (.rearmRing s)
  | startSlot =>
    simp only [exec, execStartSlot] at h
    refine .request h fun _ _ _ _ hu => .atIndex hu fun k => ?_
    simp only [State.startSlot]
    split <;> exact .refl s
  | eventAck =>
    simp only [exec, execEventAck] at h
    refine .request h fun args _ _ u hu => ?_
    split at hu <;> cases hu <;> exact .refl s
  | eventResync =>
    simp only [exec, execEventResync] at h
    refine .request h fun args _ _ u hu => ?_
    split at hu <;> cases hu <;> exact .refl s
  | restart =>
    simp only [exec, execRestart] at h
    exact .gather h (.restartShare s) (.refl s)
  | unknownCode =>
    simp only [exec, execUnknownCode] at h
    split at h
    · split at h
      · exact .of_eq_next h rfl
      · rcases State.serve_cases (captureOutcome_eq_next.mp h) with ⟨r, _, rfl⟩ | ⟨_, _, u, hu, rfl⟩
        · rw [repliedOnly_eq]; exact .refl s
        · cases hu; rw [answered_eq]; exact .refl s
    · exact .of_eq_next h rfl
  | requestTooShort =>
    simp only [exec, execRequestTooShort] at h
    split at h
    · split at h
      · exact .of_eq_next h (capture_chargeMalformed s .c)
      · exact .of_eq_next h rfl
    · exact .of_eq_next h rfl

end Sys2Proof

namespace Sys2Proof

open Sys2Proof.Machine

/-! ### The part being read (R80, R86, R92) -/

/-- A part claimed or given back: its state changed, its words kept. -/
def Machine.Ring.markPart (r : Ring) (part : RingPart) (h : HalfState) (q : SnapState) (read : Bool) :
    Ring :=
  match part.half with
  | some g => { r with stream := r.stream.markHalf g h read }
  | none => { r with snapshot := { r.snapshot with state := q } }

theorem claimPart_eq (r : Ring) (part : RingPart) :
    r.claimPart part = r.markPart part .reading .reading false := rfl

theorem givePart_eq (r : Ring) (part : RingPart) (done : Bool) :
    r.givePart part done = r.markPart part .full .frozen done := rfl

/-- A part that holds words for a readout: a half FULL or READING, a snapshot FROZEN or READING. -/
def HoldsWords (r : Ring) (part : RingPart) : Prop :=
  match part.half with
  | some h => (r.stream.half h).state = .full ∨ (r.stream.half h).state = .reading
  | none => r.snapshot.state = .frozen ∨ r.snapshot.state = .reading

theorem holdsWords_half {r : Ring} {part : RingPart} {h : HalfId} (hp : part.half = some h) :
    HoldsWords r part ↔ (r.stream.half h).state = .full ∨ (r.stream.half h).state = .reading := by
  rw [HoldsWords, hp]

theorem holdsWords_snapshot {r : Ring} {part : RingPart} (hp : part.half = none) :
    HoldsWords r part ↔ r.snapshot.state = .frozen ∨ r.snapshot.state = .reading := by
  rw [HoldsWords, hp]

theorem holdsWords_of_reading {r : Ring} {part : RingPart} (h : partReading r part = true) :
    HoldsWords r part := by
  cases hp : part.half with
  | some g => exact (holdsWords_half hp).mpr (.inr ((partReading_half r hp).mp h))
  | none =>
    rw [RingPart.half_eq_none.mp hp] at h
    exact (holdsWords_snapshot hp).mpr (.inr ((partReading_snapshot r).mp h))

theorem holdsWords_of_ready {r : Ring} {part : RingPart} (h : r.partReady part = true) :
    HoldsWords r part := by
  simp only [Ring.partReady] at h
  split at h
  · next hp => exact (holdsWords_half hp).mpr (.inl (of_decide_eq_true h))
  · next hp => exact (holdsWords_snapshot hp).mpr (.inl (of_decide_eq_true h))

/-- A half that is not EMPTY is one of an enabled STREAM ring (R68). -/
theorem RingGood.stream_of_half {r : Ring} (hr : RingGood r) {h : HalfId}
    (hne : (r.stream.half h).state ≠ .empty) : r.enabled = true ∧ r.mode = .stream := by
  have hreset : r.stream ≠ StreamState.reset := fun h' => hne (by rw [h', half_streamReset]; rfl)
  cases he : r.enabled with
  | false => exact absurd ((ringSound_disabled he).mp hr.sound).1 hreset
  | true =>
    cases hm : r.mode with
    | stream => exact ⟨rfl, rfl⟩
    | snapshot => exact absurd ((ringSound_snapshot he hm).mp hr.sound).2 hreset

/-- A snapshot that is not OFF is that of an enabled SNAPSHOT ring (R68). -/
theorem RingGood.snapshot_of_state {r : Ring} (hr : RingGood r) (hne : r.snapshot.state ≠ .off) :
    r.enabled = true ∧ r.mode = .snapshot := by
  have hreset : r.snapshot ≠ SnapshotState.reset := fun h' => hne (by rw [h']; rfl)
  cases he : r.enabled with
  | false => exact absurd ((ringSound_disabled he).mp hr.sound).2 hreset
  | true =>
    cases hm : r.mode with
    | stream => exact absurd ((ringSound_stream he hm).mp hr.sound).2 hreset
    | snapshot => exact ⟨rfl, rfl⟩

theorem half_markHalf (x : StreamState) (h g : HalfId) (state : HalfState) (read : Bool) :
    (x.markHalf h state read).half g = if g = h
      then { x.half h with state := state, readOnce := (x.half h).readOnce || read } else x.half g := by
  cases h <;> cases g <;> rfl

theorem fill_markHalf (x : StreamState) (h g : HalfId) (state : HalfState) (read : Bool) :
    ((x.markHalf h state read).half g).fill = (x.half g).fill := by
  rw [half_markHalf]
  split
  · next hg => rw [hg]
  · rfl

/-- The states a half may pass between as a readout's part. -/
def Machine.HalfState.HoldsWords (h : HalfState) : Prop := h = .full ∨ h = .reading

theorem StreamState.Sound.markHalf {x : StreamState} (hx : StreamState.Sound x) {h : HalfId}
    {state : HalfState} (read : Bool) (hold : (x.half h).state.HoldsWords) (hnew : state.HoldsWords) :
    StreamState.Sound (x.markHalf h state read) := by
  have hnot : ∀ g, (x.half g).state ≠ .filling → ((x.markHalf h state read).half g).state ≠ .filling := by
    intro g hg
    rw [half_markHalf]
    split
    · rcases hnew with rfl | rfl <;> exact nofun
    · exact hg
  have hwr : (x.markHalf h state read).writer = x.writer := StreamState.setHalf_writer _ _ _
  cases hw : x.writer with
  | off => simp [StreamState.Sound, hw] at hx
  | filling g =>
    obtain ⟨hg, ho⟩ := (sound_filling hw).mp hx
    have hne : g ≠ h := by rintro rfl; rcases hold with hf | hf <;> simp [hg] at hf
    rw [sound_filling (hwr.trans hw), half_markHalf, if_neg hne]
    exact ⟨hg, hnot _ ho⟩
  | stalled g =>
    obtain ⟨hg, ho⟩ := (sound_stalled hw).mp hx
    rw [sound_stalled (hwr.trans hw)]
    refine ⟨?_, hnot _ ho⟩
    rw [half_markHalf]
    split
    · exact hnew
    · exact hg

theorem SnapshotState.Sound.markState {x : SnapshotState} (hx : SnapshotState.Sound x) {q : SnapState}
    (hold : x.state = .frozen ∨ x.state = .reading) (hnew : q = .frozen ∨ q = .reading) :
    SnapshotState.Sound { x with state := q } := by
  obtain ⟨_, hpend, hrec⟩ := hx
  have hno : x.state ≠ .countdown := by rcases hold with h | h <;> simp [h]
  refine ⟨?_, ?_, ?_⟩
  · rcases hnew with rfl | rfl <;> exact nofun
  · have hq : q ≠ .countdown := by rcases hnew with rfl | rfl <;> exact nofun
    exact ⟨fun h => absurd (hpend.mp h) hno, fun h => absurd h hq⟩
  · exact ⟨fun _ => hnew, fun _ => hrec.mpr hold⟩

section
variable {r : Ring} {part : RingPart} {h : HalfState} {q : SnapState} (read : Bool)

theorem settings_markPart : (r.markPart part h q read).settings = r.settings := by
  simp only [Ring.markPart]; split <;> rfl

theorem inbox_markPart : (r.markPart part h q read).inbox = r.inbox := by
  simp only [Ring.markPart]; split <;> rfl

theorem markPart_good (hr : RingGood r) (hwords : HoldsWords r part)
    (hnew : h = .full ∧ q = .frozen ∨ h = .reading ∧ q = .reading) :
    RingGood (r.markPart part h q read) := by
  obtain ⟨hbase, hlen, hlen', hne, hpost, hsnap⟩ := hr.range
  have hh : h.HoldsWords := hnew.imp And.left And.left
  have hq : q = .frozen ∨ q = .reading := hnew.imp And.right And.right
  cases hp : part.half with
  | some g =>
    have hg := (holdsWords_half hp).mp hwords
    obtain ⟨he, hm⟩ := hr.stream_of_half (h := g) (by rcases hg with h | h <;> simp [h])
    obtain ⟨hst, hsn⟩ := (ringSound_stream he hm).mp hr.sound
    simp only [Ring.markPart, hp]
    exact ⟨(ringSound_stream (r := { r with stream := r.stream.markHalf g h read }) he hm).mpr
      ⟨hst.markHalf read hg hh, hsn⟩, hbase, hlen, hlen', hne, hpost, hsnap⟩
  | none =>
    have hs := (holdsWords_snapshot hp).mp hwords
    obtain ⟨he, hm⟩ := hr.snapshot_of_state (by rcases hs with h | h <;> simp [h])
    obtain ⟨hsn, hst⟩ := (ringSound_snapshot he hm).mp hr.sound
    simp only [Ring.markPart, hp]
    exact ⟨(ringSound_snapshot (r := { r with snapshot := { r.snapshot with state := q } }) he hm).mpr
      ⟨SnapshotState.Sound.markState hsn hs hq, hst⟩, hbase, hlen, hlen', hne, hpost, hsnap⟩

/-- Of a marked ring, the part that is marked has the new state and every other keeps its own. -/
theorem partReading_markPart (hnew : h = .full ∧ q = .frozen ∨ h = .reading ∧ q = .reading)
    (p : RingPart) : partReading (r.markPart part h q read) p = true ↔
      (if p = part then h = .reading else partReading r p = true) := by
  by_cases hpart : p = part
  · subst hpart
    rw [if_pos rfl]
    have hq : q = .reading ↔ h = .reading := by rcases hnew with ⟨rfl, rfl⟩ | ⟨rfl, rfl⟩ <;> simp
    cases p
    · exact decide_eq_true_iff
    · exact decide_eq_true_iff
    · exact decide_eq_true_iff.trans hq
  · rw [if_neg hpart]
    match p, part, hpart with
    | .halfA, .halfB, _ | .halfA, .snapshot, _ | .halfB, .halfA, _ | .halfB, .snapshot, _
    | .snapshot, .halfA, _ | .snapshot, .halfB, _ => exact Iff.rfl
    | .halfA, .halfA, h | .halfB, .halfB, h | .snapshot, .snapshot, h => exact absurd rfl h

theorem markPart_fills {length w : Nat} (hwords : HoldsWords r part) (hnew : h.HoldsWords)
    (hr : HalvesFit length w r.stream) : HalvesFit length w (r.markPart part h q read).stream := by
  intro g
  cases hp : part.half with
  | some k =>
    obtain ⟨hle, hmod, hlt, hne⟩ := hr g
    simp only [Ring.markPart, hp]
    rw [HalfFits, fill_markHalf]
    refine ⟨hle, hmod, ?_, ?_⟩ <;> rw [half_markHalf] <;> split
    · rcases hnew with rfl | rfl <;> exact nofun
    · exact hlt
    · next hg => exact fun _ => hne (hg ▸ (holdsWords_half hp).mp hwords)
    · exact hne
  | none =>
    simp only [Ring.markPart, hp]
    exact hr g

end

/-- No part of a ring that its mode has just begun, or of a disabled one, is READING (R68). -/
theorem partReading_fresh {r : Ring}
    (h : r.stream = StreamState.reset ∨ r.stream = StreamState.begun)
    (h' : r.snapshot = SnapshotState.reset ∨ r.snapshot = SnapshotState.begun) (part : RingPart) :
    partReading r part = false := by
  refine Bool.eq_false_iff.mpr fun hr => ?_
  cases hp : part.half with
  | some g =>
    have hread := (partReading_half r hp).mp hr
    rcases h with h | h <;> rw [h] at hread <;> cases g <;> cases hread
  | none =>
    rw [RingPart.half_eq_none.mp hp, partReading_snapshot] at hr
    rcases h' with h' | h' <;> rw [h'] at hr <;> cases hr

end Sys2Proof

namespace Sys2Proof

open Sys2Proof.Machine

/-! ### The moves keep capture memory canonical (R65) -/

theorem CaptureMove.wf {width : Ring → Nat} {x y : Capture} (h : CaptureMove width x y)
    (hx : x.memory.wf = true) : y.memory.wf = true := by
  cases h with
  | inFlight _ hm _ =>
    rcases hm with hm | hm <;> rw [hm]
    · exact hx
    · rfl
  | moved k z n ws _ _ hws hy => rw [hy]; exact CaptureMemory.writeAll_wf hx hws
  | claimed k part _ _ _ _ hy => rw [hy]; exact hx
  | gave c done _ hy => rw [hy]; exact hx
  | restarted hy => rw [hy]; exact hx

/-! ### The moves keep the rings sound (R67, R73, R81, R92) -/

theorem RingGood.of_inFlight {r y : Ring} (h : RingGood r)
    (hy : y = { r with inbox := y.inbox, freezes := y.freezes }) : RingGood y := by
  rw [hy]; exact ⟨h.sound, h.range⟩

theorem partReading_of_inFlight {r y : Ring}
    (hy : y = { r with inbox := y.inbox, freezes := y.freezes }) (part : RingPart) :
    partReading y part = partReading r part := by
  rw [hy]; rfl

/-- Where nothing is claimed no part is READING. -/
theorem CaptureSound.unread {x : Capture} (h : CaptureSound x) (hc : x.claim = none) (k : Fin 8)
    (part : RingPart) : ¬ partReading (x.rings.get k) part = true := fun hr => by
  obtain ⟨c, hc', _⟩ := (h.reading k part).mp hr
  rw [hc] at hc'; cases hc'

/-- A claimed part is READING. -/
theorem CaptureSound.claimed {x : Capture} (h : CaptureSound x) {c : Claim} (hc : x.claim = some c) :
    partReading (x.rings.get c.ring) c.part = true :=
  (h.reading c.ring c.part).mpr ⟨c, hc, rfl, rfl⟩

/-- A READING part is the claimed one. -/
theorem CaptureSound.claims {x : Capture} (h : CaptureSound x) {c : Claim} (hc : x.claim = some c)
    {k : Fin 8} {part : RingPart} (hr : partReading (x.rings.get k) part = true) :
    c.ring = k ∧ c.part = part := by
  obtain ⟨c', hc', hk, hp⟩ := (h.reading k part).mp hr
  obtain rfl := Option.some.inj (hc.symm.trans hc')
  exact ⟨hk, hp⟩

theorem StreamState.begun_sound : StreamState.Sound StreamState.begun := by
  rw [sound_filling (h := .a) rfl]; exact ⟨rfl, nofun⟩

theorem SnapshotState.begun_sound : SnapshotState.Sound SnapshotState.begun :=
  ⟨nofun, by simp [SnapshotState.begun, SnapshotState.reset],
    by simp [SnapshotState.begun, SnapshotState.reset]⟩

/-- The state groups a ring has when it begins, by its mode (R68). -/
theorem begun_cases (r : Ring) :
    (r.mode = .stream ∧ r.begun = { r with stream := StreamState.begun, snapshot := SnapshotState.reset })
      ∨ r.mode = .snapshot
        ∧ r.begun = { r with stream := StreamState.reset, snapshot := SnapshotState.begun } := by
  cases hm : r.mode <;> simp [Ring.begun, hm]

/-- A ring that begins, with counts of its own: good where its range is, and no part READING. -/
theorem begun_good {r : Ring} (hr : RingInRange { r with snapshot := SnapshotState.reset })
    (he : r.enabled = true) : RingGood r.begun := by
  obtain ⟨hbase, hlen, hlen', hne, hpost, _⟩ := hr
  rcases begun_cases r with ⟨hm, h⟩ | ⟨hm, h⟩ <;> rw [h]
  · exact ⟨(ringSound_stream
      (r := { r with stream := StreamState.begun, snapshot := SnapshotState.reset }) he hm).mpr
      ⟨StreamState.begun_sound, rfl⟩, hbase, hlen, hlen', hne, hpost, snapshotReset_inRange _⟩
  · exact ⟨(ringSound_snapshot
      (r := { r with stream := StreamState.reset, snapshot := SnapshotState.begun }) he hm).mpr
      ⟨SnapshotState.begun_sound, rfl⟩, hbase, hlen, hlen', hne, hpost, snapshotBegun_inRange _⟩

theorem partReading_begun (r : Ring) (part : RingPart) : partReading r.begun part = false := by
  rcases begun_cases r with ⟨_, h⟩ | ⟨_, h⟩ <;> rw [h]
  · exact partReading_fresh (.inr rfl) (.inl rfl) part
  · exact partReading_fresh (.inl rfl) (.inr rfl) part

theorem inbox_restarted (r : Ring) : r.restarted.inbox = r.inbox := by
  simp only [Ring.restarted]
  split
  · rcases begun_cases r with ⟨_, h⟩ | ⟨_, h⟩ <;> rw [h]
  · rfl

theorem restarted_good {r : Ring} (hr : RingGood r) : RingGood r.restarted := by
  obtain ⟨hbase, hlen, hlen', hne, hpost, _⟩ := hr.range
  simp only [Ring.restarted]
  split
  · next he =>
    have h := begun_good (r := r) ⟨hbase, hlen, hlen', hne, hpost, snapshotReset_inRange _⟩ he
    exact ⟨h.sound, h.range⟩
  · next he =>
    exact ⟨(ringSound_disabled (r := { r with stream := _, snapshot := _, dropped := _, lost := _ })
      (by simpa using he)).mpr ⟨rfl, rfl⟩, hbase, hlen, hlen', hne, hpost, snapshotReset_inRange _⟩

theorem partReading_restarted (r : Ring) (part : RingPart) : partReading r.restarted part = false := by
  simp only [Ring.restarted]
  split
  · exact partReading_begun r part
  · exact partReading_fresh (.inl rfl) (.inl rfl) part

/-- A ring replaced by a good one in which the same parts are READING, the claim kept. -/
theorem CaptureSound.set {x : Capture} (h : CaptureSound x) {k : Fin 8} {z : Ring} (hz : RingGood z)
    (hr : ∀ part, partReading z part = true ↔ partReading (x.rings.get k) part = true)
    (memory : CaptureMemory) : CaptureSound ⟨x.rings.set k z, memory, x.claim⟩ := by
  refine ⟨Table.forall_get_set h.rings hz, fun j part => ?_⟩
  rw [← h.reading j part]
  simp only [Table.get_set]
  split
  · next hj => rw [← hj]; exact hr part
  · exact Iff.rfl

theorem CaptureMove.sound {width : Ring → Nat} {x y : Capture} (h : CaptureMove width x y)
    (hx : CaptureSound x) : CaptureSound y := by
  cases h with
  | inFlight hr _ hc =>
    refine ⟨fun k => (hx.rings k).of_inFlight (hr k).1, fun k part => ?_⟩
    rw [partReading_of_inFlight (hr k).1, hc]
    exact hx.reading k part
  | moved k z n ws hz _ _ hy =>
    rw [hy]
    have hmove := hz (hx.rings k)
    exact hx.set (hmove.good (hx.rings k)) hmove.partReading_iff _
  | claimed k part hfree _ _ hready hy =>
    rw [hy]
    refine ⟨Table.forall_get_set hx.rings (markPart_good _ (hx.rings k) (holdsWords_of_ready hready)
      (.inr ⟨rfl, rfl⟩)), fun j p => ?_⟩
    have hunread := hx.unread hfree j p
    simp only [Table.get_set]
    split
    · next hj =>
      subst hj
      rw [claimPart_eq, partReading_markPart _ (.inr ⟨rfl, rfl⟩)]
      simp [hunread, eq_comm]
    · next hj => simp [hunread, hj]
  | gave c done hc hy =>
    rw [hy]
    have hread := hx.claimed hc
    refine ⟨Table.forall_get_set hx.rings (markPart_good _ (hx.rings _) (holdsWords_of_reading hread)
      (.inl ⟨rfl, rfl⟩)), fun j p => ?_⟩
    simp only [reduceCtorEq, false_and, exists_false, iff_false]
    intro hp
    rw [Table.get_set] at hp
    split at hp
    · rw [givePart_eq, partReading_markPart _ (.inl ⟨rfl, rfl⟩)] at hp
      split at hp
      · cases hp
      · next hne => exact hne (hx.claims hc hp).2.symm
    · next hj => exact hj (hx.claims hc hp).1
  | restarted hy =>
    rw [hy]
    refine ⟨fun k => ?_, fun k part => ?_⟩
    · rw [Table.get_map]; exact restarted_good (hx.rings k)
    · rw [Table.get_map, partReading_restarted]
      simp

/-! ### The moves keep items, fills and the words of a readout in range (R71, R73, R94) -/

theorem halvesFit_begun {length w : Nat} (hlen : 128 ≤ length) :
    HalvesFit length w StreamState.begun := by
  intro h
  have hfill : (StreamState.begun.half h).fill = 0 := by cases h <;> rfl
  have hst : ¬ ((StreamState.begun.half h).state = .full ∨ (StreamState.begun.half h).state = .reading) := by
    cases h <;> simp [StreamState.begun, StreamState.half, Half.reset]
  rw [HalfFits, hfill]
  exact ⟨Nat.zero_le _, Nat.zero_mod _, fun _ => by omega, fun h => absurd h hst⟩

theorem halvesFit_of_begun {r : Ring} {w : Nat} (hm : r.mode = .stream) (hlen : 128 ≤ r.length) :
    HalvesFit r.length w r.begun.stream := by
  rcases begun_cases r with ⟨_, h⟩ | ⟨hm', _⟩
  · rw [h]; exact halvesFit_begun hlen
  · rw [hm] at hm'; cases hm'

theorem halfStart_eq (r : Ring) (h : HalfId) :
    r.halfStart h = r.base + (if h = .a then 0 else r.length / 2) := by
  cases h <;> simp [Ring.halfStart, Ring.halfLength]

theorem partWords_half (r : Ring) {part : RingPart} {g : HalfId} (hp : part.half = some g) :
    r.partWords part = (r.stream.half g).fill := by
  cases part <;> cases hp <;> rfl

theorem partStart_half (r : Ring) {part : RingPart} {g : HalfId} (hp : part.half = some g) :
    r.partStart part = r.halfStart g := by
  cases part <;> cases hp <;> rfl

/-- The words an accepted readout names are those of the part it claims (R94 steps 1 to 3). -/
theorem holdsPart_claimed {r : Ring} {k : Fin 8} {part : RingPart} {w : Nat} (hr : RingGood r)
    (hwords : HoldsWords r part)
    (hfits : r.enabled = true → r.mode = .stream → HalvesFit r.length w r.stream) :
    HoldsPart (r.claimPart part) ⟨k, part, r.partWords part, r.partStart part⟩ := by
  obtain ⟨hbase, _, _, _, _, _, _, _, hrec⟩ := hr.range
  suffices h : HoldsPart r ⟨k, part, r.partWords part, r.partStart part⟩ by
    refine h.of_part ?_ ?_ (fun g hg => ?_) fun hp => ?_
    · simp only [Ring.claimPart]; split <;> rfl
    · simp only [Ring.claimPart]; split <;> rfl
    · simp only [Ring.claimPart]
      split
      · exact fill_markHalf _ _ _ _ _
      · rfl
    · cases hp; rfl
  cases hp : part.half with
  | some g =>
    have hg := (holdsWords_half hp).mp hwords
    obtain ⟨he, hm⟩ := hr.stream_of_half (h := g) (by rcases hg with h | h <;> simp [h])
    obtain ⟨hle, _⟩ := hfits he hm g
    have htotal := partWords_half r hp
    have hstart : r.partStart part = r.base + (if g = .a then 0 else r.length / 2) :=
      (partStart_half r hp).trans (halfStart_eq r g)
    refine ⟨?_, fun h hh => ?_, fun hs => ?_⟩
    · show r.partWords part ≤ r.length
      omega
    · obtain rfl := Option.some.inj (hp.symm.trans hh)
      refine ⟨hstart, htotal, htotal ▸ hle, ?_⟩
      show r.partStart part + r.partWords part ≤ _
      rw [hstart, htotal]
      split <;> omega
    · cases (RingPart.half_eq_none.mpr hs).symm.trans hp
  | none =>
    have hs := (holdsWords_snapshot hp).mp hwords
    obtain rfl := RingPart.half_eq_none.mp hp
    obtain ⟨he, hm⟩ := hr.snapshot_of_state (by rcases hs with h | h <;> simp [h])
    obtain ⟨_, _, hsome⟩ := hr.snapshot he hm
    obtain ⟨d, hd⟩ := Option.ne_none_iff_exists'.mp (hsome.mpr hs)
    have htotal : r.partWords .snapshot = d.valid := by simp [Ring.partWords, hd]
    have hstart : r.partStart .snapshot = (d.endPosition + (r.length - d.valid)) % r.length := by
      simp [Ring.partStart, hd]
    obtain ⟨hvalid, _⟩ := hrec d hd
    refine ⟨htotal ▸ hvalid, fun h hh => (nomatch hh), fun _ => ⟨d, hd, htotal, ?_⟩⟩
    show ((r.partStart .snapshot : Nat) : Int) = _
    rw [hstart]
    push_cast [hvalid]
    rw [show (d.endPosition : Int) + (r.length - d.valid) = d.endPosition - d.valid + r.length by ring,
      Int.add_emod_right]

section
variable {width : Ring → Nat} {on : Fin 8 → Prop} {x y : Capture}
  (hfit : CaptureFits (fun k => width (x.rings.get k)) on x)
include hfit

theorem CaptureFits.set {k : Fin 8} {z : Ring} {memory : CaptureMemory} {claim : Option Claim}
    (hinbox : ∀ item ∈ z.inbox, item ∈ (x.rings.get k).inbox)
    (hfills : z.enabled = true → z.mode = .stream →
      HalvesFit z.length (width (x.rings.get k)) z.stream)
    (hholds : ∀ c, claim = some c → HoldsPart ((x.rings.set k z).get c.ring) c) :
    CaptureFits (fun k => width (x.rings.get k)) on ⟨x.rings.set k z, memory, claim⟩ := by
  refine ⟨fun j hj item => ?_, fun j => ?_, hholds⟩ <;> simp only [Table.get_set] <;> split
  · next h => subst h; exact fun hi => hfit.items k hj item (hinbox item hi)
  · exact hfit.items j hj item
  · next h => subst h; exact hfills
  · exact hfit.fills j

theorem CaptureMove.fits (h : CaptureMove width x y) (hx : CaptureSound x) (hw : ∀ r, width r = 1 ∨ width r = 2)
    (hon : ∀ k, (x.rings.get k).enabled = true → on k) :
    CaptureFits (fun k => width (x.rings.get k)) on y := by
  cases h with
  | inFlight hr _ hc =>
    refine ⟨fun k hk item hi => ?_, fun k => ?_, fun c hc' => ?_⟩
    · exact ((hr k).2 item hi).elim (hfit.items k hk item) id
    · rw [(hr k).1]; exact hfit.fills k
    · rw [(hr c.ring).1]; exact hfit.holds c (hc ▸ hc')
  | moved k z n ws hz hn _ hy =>
    rw [hy]
    have hmove := hz (hx.rings k)
    have hsame := ring_of_settings hmove.settings
    refine hfit.set hmove.inbox (fun he hm => ?_) fun c hc => ?_
    · have he' : (x.rings.get k).enabled = true := by rw [hsame] at he; exact he
      have hm' : (x.rings.get k).mode = .stream := by rw [hsame] at hm; exact hm
      have hl : z.length = (x.rings.get k).length := by rw [hsame]
      rw [hl]
      refine hmove.stream.fills _ (hw _) ?_ (hfit.fills k he' hm')
      rcases hn with hn | ⟨item, hi, rfl⟩
      · exact .inl hn
      · exact hfit.items k (hon k he') item hi
    · rw [Table.get_set]
      split
      · next hk => subst hk; exact hmove.holds (hx.claimed hc) (hfit.holds c hc)
      · exact hfit.holds c hc
  | claimed k part hfree hen hfits hready hy =>
    rw [hy]
    have hwords := holdsWords_of_ready hready
    refine hfit.set (fun item hi => ?_) (fun he hm => ?_) fun c hc => ?_
    · rwa [claimPart_eq, inbox_markPart] at hi
    · have hsame := ring_of_settings (Ring.settings_claimPart (x.rings.get k) part)
      have hm' : (x.rings.get k).mode = .stream := by rw [hsame] at hm; exact hm
      have hl : ((x.rings.get k).claimPart part).length = (x.rings.get k).length := by rw [hsame]
      rw [hl, claimPart_eq]
      exact markPart_fills _ hwords (.inr rfl) (hfit.fills k hen hm')
    · obtain rfl := Option.some.inj hc
      rw [Table.get_set_self]
      exact holdsPart_claimed (hx.rings k) hwords (hfit.fills k)
  | gave c done hc hy =>
    rw [hy]
    have hwords := holdsWords_of_reading (hx.claimed hc)
    refine hfit.set (fun item hi => ?_) (fun he hm => ?_) nofun
    · rwa [givePart_eq, inbox_markPart] at hi
    · have hsame := ring_of_settings (settings_markPart (r := x.rings.get c.ring) (part := c.part)
        (h := .full) (q := .frozen) done)
      rw [givePart_eq] at he hm ⊢
      have he' : (x.rings.get c.ring).enabled = true := by rw [hsame] at he; exact he
      have hm' : (x.rings.get c.ring).mode = .stream := by rw [hsame] at hm; exact hm
      have hl : ((x.rings.get c.ring).markPart c.part .full .frozen done).length
        = (x.rings.get c.ring).length := by rw [hsame]
      rw [hl]
      exact markPart_fills _ hwords (.inl rfl) (hfit.fills _ he' hm')
  | restarted hy =>
    rw [hy]
    refine ⟨fun k hk item hi => ?_, fun k => ?_, nofun⟩
    · rw [Table.get_map, inbox_restarted] at hi
      exact hfit.items k hk item hi
    · rw [Table.get_map]
      intro he hm
      have hsame := ring_of_settings (Ring.settings_restarted (x.rings.get k))
      have he' : (x.rings.get k).enabled = true := by rw [hsame] at he; exact he
      have hm' : (x.rings.get k).mode = .stream := by rw [hsame] at hm; exact hm
      have heq : (x.rings.get k).restarted.stream = (x.rings.get k).begun.stream := by
        rw [Ring.restarted, if_pos he']
      have hl : (x.rings.get k).restarted.length = (x.rings.get k).length := by rw [hsame]
      rw [heq, hl]
      exact halvesFit_of_begun hm' ((hx.rings k).length_of_enabled he')

end

end Sys2Proof

namespace Sys2Proof

open Sys2Proof.Machine

/-! ### What WRITE_ENTRY, ENABLE and DISABLE do to the rings (R67 to R70) -/

/-- What a command of the tables can do to the rings: sources change and what they offered passes by; or one
ring is written, enabled or disabled. -/
inductive TableMove (s : State) : State → Prop
  | sources {t : State}
      (hr : ∀ k, t.rings.get k = { s.rings.get k with inbox := (t.rings.get k).inbox }
        ∧ (∀ item ∈ (t.rings.get k).inbox, item ∈ (s.rings.get k).inbox)
        ∧ (SourceOn t (s.rings.get k).sourceKind (s.rings.get k).sourceIndex →
            RingOn s (s.rings.get k) ∨ (t.rings.get k).inbox = []))
      (hmode : ∀ j, (s.slots.get j).enabled = true → (t.slots.get j).mode = (s.slots.get j).mode)
      (hm : t.memory = s.memory) (hc : t.claim = s.claim) : TableMove s t
  | written (k : Fin 8) {z : Ring} {mask : Nat} {v : List Byte}
      (hz : (s.rings.get k).write mask v = some z)
      (hb : (s.rings.get k).enabled = true → maskBound .ring mask = false) :
      TableMove s (s.setRing k ((s.rings.get k).rewritten z))
  | enabled (k : Fin 8) (hoff : (s.rings.get k).enabled = false) (hlen : (s.rings.get k).length ≠ 0)
      (hsrc : SourceOn s (s.rings.get k).sourceKind (s.rings.get k).sourceIndex) :
      TableMove s (s.setRing k (s.rings.get k).enabledFresh)
  | disabled (k : Fin 8) (hon : (s.rings.get k).enabled = true)
      (hfree : ∀ c, s.claim = some c → c.ring ≠ k) :
      TableMove s (s.setRing k (s.rings.get k).disabledFresh)

/-- A command of the tables that changes no ring and no slot's mode, and enables no source. -/
theorem TableMove.of_same {s t : State} (hr : t.rings = s.rings)
    (hsrc : ∀ kind index, SourceOn t kind index → SourceOn s kind index)
    (hmode : ∀ j, (s.slots.get j).enabled = true → (t.slots.get j).mode = (s.slots.get j).mode)
    (hm : t.memory = s.memory) (hc : t.claim = s.claim) : TableMove s t :=
  .sources (fun k => by
    rw [hr]; exact ⟨rfl, fun _ => id, fun h => .inl (.inr (hsrc _ _ h))⟩) hmode hm hc

theorem TableMove.refl (s : State) : TableMove s s :=
  .of_same rfl (fun _ _ => id) (fun _ _ => rfl) rfl rfl

theorem sourceOn_setChannel {s : State} {c : Fin 64} {y : Channel}
    (h : y.enabled = true → (s.channel c).enabled = true) {kind : SourceKind} {index : Fin 64}
    (hs : SourceOn (s.setChannel c y) kind index) : SourceOn s kind index := by
  refine hs.imp_left fun ⟨hk, he⟩ => ⟨hk, ?_⟩
  rw [State.channel_setChannel] at he
  split at he
  · next hc => exact hc ▸ h he
  · exact he

theorem sourceOn_setSlot {s : State} {k : Fin 16} {y : Slot}
    (h : y.enabled = true → (s.slots.get k).enabled = true) {kind : SourceKind} {index : Fin 64}
    (hs : SourceOn (s.setSlot k y) kind index) : SourceOn s kind index := by
  refine hs.imp_right fun ⟨hk, j, hj, he⟩ => ⟨hk, j, hj, ?_⟩
  rw [State.setSlot_slots, Table.get_set] at he
  split at he
  · next hk => exact hk ▸ h he
  · exact he

/-- The mode of a slot is a bound field (R135). -/
theorem Machine.Slot.write_mode {x y : Slot} {mask : Nat} {v : List Byte}
    (hm : maskBound .slot mask = false) (h : x.write mask v = some y) : y.mode = x.mode := by
  simp only [Slot.write, Option.bind_eq_some_iff] at h
  obtain ⟨_, _, _, h1, _, _, _, _, _, _, _, _, h⟩ := h
  cases h
  exact field_eq_old (testBit_of_maskBound hm rfl) h1

theorem TableMove.setSlot {s : State} {k : Fin 16} {y : Slot}
    (he : y.enabled = true → (s.slots.get k).enabled = true)
    (hm : (s.slots.get k).enabled = true → y.mode = (s.slots.get k).mode) :
    TableMove s (s.setSlot k y) := by
  refine .of_same rfl (fun _ _ => sourceOn_setSlot he) (fun j hj => ?_) rfl rfl
  rw [State.setSlot_slots, Table.get_set]
  split
  · next h => subst h; exact hm hj
  · rfl

theorem TableMove.setRule (s : State) (k : Fin 32) (r : Rule) : TableMove s (s.setRule k r) :=
  .of_same rfl (fun _ _ => id) (fun _ _ => rfl) rfl rfl

theorem TableMove.writeEntry (s : State) (x : TableId) (i mask : Nat) (v : List Byte) :
    TableMove s (s.writeEntry x i mask v).2 := by
  have hs := TableMove.refl s
  cases x with
  | channel =>
    refine atIndex_keeps hs fun c => writeChecked_keeps hs fun y hy _ _ => ?_
    refine .of_same rfl (fun _ _ => sourceOn_setChannel ?_) (fun _ _ => rfl) rfl rfl
    rw [Channel.write_eq_some hy]
    exact id
  | node => exact hs
  | slot =>
    refine atIndex_keeps hs fun k => writeChecked_keeps hs fun y hy _ hb => ?_
    rw [Slot.rewritten_eq]
    refine .setSlot ?_ fun he => (Slot.write_mode (hb he) hy :)
    rw [Slot.write_eq_some hy]
    exact id
  | rule => exact atIndex_keeps hs fun k => writeChecked_keeps hs fun _ _ _ _ => .setRule s k _
  | ring => exact atIndex_keeps hs fun k => writeChecked_keeps hs fun y hy _ hb => .written k hy hb
  | global =>
    simp only [State.writeEntry]
    split
    · exact writeChecked_keeps hs fun _ _ _ _ =>
        .of_same rfl (fun _ _ => id) (fun _ _ => rfl) rfl rfl
    · exact hs

/-- A source's ENABLE: what it offered before passes by the consumers that are not enabled (R10, R24). -/
theorem TableMove.of_passBy {s t : State} {src : Source}
    (hr : t.rings = (s.passBy fun x => decide (x = src)).rings)
    (hsrc : ∀ kind index, SourceOn t kind index → SourceOn s kind index ∨ namedSource kind index = some src)
    (hmode : ∀ j, (s.slots.get j).enabled = true → (t.slots.get j).mode = (s.slots.get j).mode)
    (hm : t.memory = s.memory) (hc : t.claim = s.claim) : TableMove s t := by
  obtain ⟨_, _, hgone, _⟩ := s.passBy_offersGone src
  refine .sources (fun k => ?_) hmode hm hc
  rw [hr, hgone k]
  refine ⟨rfl, fun item hi => ?_, fun h => ?_⟩
  · dsimp only at hi
    split at hi
    · cases hi
    · exact hi
  · dsimp only
    rcases hsrc _ _ h with h | h
    · exact .inl (.inr h)
    · split
      · exact .inr rfl
      · next hne =>
        refine .inl (.inl ?_)
        simpa [Ring.source, h] using hne

theorem TableMove.enableChannel (s : State) (c : Fin 64) : TableMove s (s.enableChannel c).2 := by
  simp only [State.enableChannel]
  split_ifs
  · exact .refl s
  · exact .refl s
  · exact .refl s
  · refine .of_passBy (src := .channel c) rfl (fun kind index h => ?_) (fun j _ => ?_) rfl rfl
    · rcases h with ⟨hk, he⟩ | ⟨hk, j, hj, he⟩
      · rw [State.channel_setChannel] at he
        split at he
        · next hc => exact .inr (namedSource_eq_channel.mpr ⟨hk, hc.symm⟩)
        · exact .inl (.inl ⟨hk, he⟩)
      · rw [State.setChannel_slots, State.slots_passBy] at he
        exact .inl (.inr ⟨hk, j, hj, he⟩)
    · rw [State.setChannel_slots, State.slots_passBy]

theorem TableMove.enableSlot (s : State) (k : Fin 16) : TableMove s (s.enableSlot k).2 := by
  simp only [State.enableSlot]
  split_ifs
  · exact .refl s
  · exact .refl s
  · exact .refl s
  · refine .of_passBy (src := .slot k) rfl (fun kind index h => ?_) (fun j _ => ?_) rfl rfl
    · rcases h with ⟨hk, he⟩ | ⟨hk, j, hj, he⟩
      · exact .inl (.inl ⟨hk, he⟩)
      · rw [State.setSlot_slots, Table.get_set] at he
        split at he
        · next hkj => exact .inr (namedSource_eq_slot.mpr ⟨hk, by rw [hkj, hj]⟩)
        · rw [State.slots_passBy] at he
          exact .inl (.inr ⟨hk, j, hj, he⟩)
    · rw [State.setSlot_slots, Table.get_set]
      split
      · next hkj => rw [hkj]; rfl
      · rw [State.slots_passBy]

theorem TableMove.enableRing (s : State) (k : Fin 8) : TableMove s (s.enableRing k).2 := by
  simp only [State.enableRing]
  split_ifs with he hlen hsource hrange hsrc
  · exact .refl s
  · exact .refl s
  · exact .refl s
  · exact .refl s
  · exact .refl s
  · exact .enabled k (by simpa using he) hlen
      ((s.sourceEnabled_iff _ _).mp (by simpa [Ring.source] using hsrc))

theorem TableMove.enableEntry (s : State) (x : TableId) (i : Nat) :
    TableMove s (s.enableEntry x i).2 := by
  have hs := TableMove.refl s
  cases x with
  | channel => exact atIndex_keeps hs (.enableChannel s)
  | node => exact hs
  | slot => exact atIndex_keeps hs (.enableSlot s)
  | rule =>
    refine atIndex_keeps hs fun k => ?_
    simp only [State.enableRule]
    split_ifs
    exacts [.refl s, .refl s, .refl s, .refl s, .refl s, .refl s, .setRule s k _]
  | ring => exact atIndex_keeps hs (.enableRing s)
  | global => exact hs

theorem TableMove.disableRing (s : State) (k : Fin 8) : TableMove s (s.disableRing k).2 := by
  simp only [State.disableRing]
  split_ifs with he hbusy hfreezer
  · exact .refl s
  · exact .refl s
  · exact .refl s
  · refine .disabled k (by simpa using he) fun c hc hk => hbusy ?_
    obtain ⟨x, hx, rfl⟩ := claim_eq_some_iff.mp hc
    rw [hx, EngineState.ring, ← hk]
    rfl

theorem TableMove.disableEntry (s : State) (x : TableId) (i : Nat) :
    TableMove s (s.disableEntry x i).2 := by
  have hs := TableMove.refl s
  cases x with
  | channel =>
    refine atIndex_keeps hs fun c => ?_
    simp only [State.disableChannel]
    split_ifs
    · exact .refl s
    · exact .refl s
    · refine .of_same rfl (fun _ _ => sourceOn_setChannel ?_) (fun _ _ => rfl) rfl rfl
      exact nofun
  | node => exact hs
  | slot =>
    refine atIndex_keeps hs fun k => ?_
    simp only [State.disableSlot]
    split_ifs
    · exact .refl s
    · exact .refl s
    · exact .setSlot nofun fun _ => rfl
  | rule =>
    refine atIndex_keeps hs fun k => ?_
    simp only [State.disableRule]
    split
    · exact .refl s
    · exact .setRule s k _
  | ring => exact atIndex_keeps hs (.disableRing s)
  | global => exact hs

theorem TableMove.memory {s t : State} (h : TableMove s t) : t.memory = s.memory := by
  cases h with
  | sources _ _ hm _ => exact hm
  | written | enabled | disabled => rfl

/-! #### The rings stay sound -/

/-- A range that a write leaves (R67): what it names passed its check, the rest was in range before. -/
theorem write_range {r z : Ring} {mask : Nat} {v : List Byte} (h : r.write mask v = some z)
    (hr : RingInRange r) : z.base + z.length ≤ Config.captureWords ∧ z.length % 64 = 0
      ∧ (z.length = 0 ∨ 128 ≤ z.length) ∧ z.postCount ≤ z.length := by
  obtain ⟨hgood, _⟩ := Ring.write_eq_some h
  obtain ⟨_, hmod, hlen, _⟩ := hr
  obtain ⟨hbase, hpost⟩ : z.base + z.length ≤ Config.captureWords ∧ z.postCount ≤ z.length := by
    simpa [Ring.relationsGood] using hgood
  have hlength : z.length % 64 = 0 ∧ (z.length = 0 ∨ 128 ≤ z.length) := by
    simp only [Ring.write, Option.bind_eq_some_iff] at h
    obtain ⟨_, _, length, hl, _, _, _, _, _, _, _, _, _, _, _, _, h⟩ := h
    split at h <;> cases h
    refine field_keeps (P := fun n => n % 64 = 0 ∧ (n = 0 ∨ 128 ≤ n)) hl ⟨hmod, hlen⟩ fun n hn => ?_
    simp only [multipleOf64] at hn
    split at hn
    · next h64 =>
      obtain ⟨rfl, hlow, _⟩ := inRange_eq_some hn
      exact ⟨h64, .inr hlow⟩
    · cases hn
  exact ⟨hbase, hlength.1, hlength.2, hpost⟩

/-- What a write leaves of a ring's own state. -/
theorem write_keeps {r z : Ring} {mask : Nat} {v : List Byte} (h : r.write mask v = some z) :
    z.enabled = r.enabled ∧ z.stream = r.stream ∧ z.snapshot = r.snapshot ∧ z.inbox = r.inbox := by
  obtain ⟨_, hz⟩ := Ring.write_eq_some h
  rw [hz]
  exact ⟨rfl, rfl, rfl, rfl⟩

theorem rewritten_good {r z : Ring} {mask : Nat} {v : List Byte} (h : r.write mask v = some z)
    (hb : r.enabled = true → maskBound .ring mask = false) (hr : RingGood r) :
    RingGood (r.rewritten z) := by
  obtain ⟨hbase, hmod, hlen, hpost⟩ := write_range h hr.range
  obtain ⟨he, hst, hsn, _⟩ := write_keeps h
  obtain ⟨_, _, _, hne, _, hsnap⟩ := hr.range
  suffices hgood : RingGood z by rw [Ring.rewritten_eq]; exact ⟨hgood.sound, hgood.range⟩
  cases hen : r.enabled with
  | false =>
    obtain ⟨hs, hs'⟩ := (ringSound_disabled hen).mp hr.sound
    refine ⟨(ringSound_disabled (he.trans hen)).mpr ⟨hst.trans hs, hsn.trans hs'⟩, hbase, hmod, hlen,
      fun h => ?_, hpost, ?_⟩
    · simp [he, hen] at h
    · rw [hsn, hs']; exact snapshotReset_inRange _
  | true =>
    obtain ⟨_, hl, hm, _, _⟩ := Ring.write_bound (hb hen) h
    refine ⟨?_, hbase, hmod, hlen, fun _ => by rw [hl]; exact hne hen, hpost, by rw [hsn, hl]; exact hsnap⟩
    have hsound := hr.sound
    simp only [Ring.Sound] at hsound ⊢
    rwa [he, hm, hst, hsn]

theorem partReading_rewritten {r z : Ring} {mask : Nat} {v : List Byte} (h : r.write mask v = some z)
    (part : RingPart) : partReading (r.rewritten z) part = partReading r part := by
  obtain ⟨_, hz⟩ := Ring.write_eq_some h
  rw [Ring.rewritten_eq, hz]
  rfl

/-- What an ENABLE keeps of a ring. -/
theorem enabledFresh_keeps (r : Ring) : r.enabledFresh.mode = r.mode ∧ r.enabledFresh.length = r.length
    ∧ r.enabledFresh.sourceKind = r.sourceKind ∧ r.enabledFresh.sourceIndex = r.sourceIndex
    ∧ r.enabledFresh.inbox = r.inbox := by
  rw [ringEnabledFresh_eq]
  exact ⟨rfl, rfl, rfl, rfl, rfl⟩

theorem enabledFresh_good {r : Ring} (hr : RingGood r) (hne : r.length ≠ 0) :
    RingGood r.enabledFresh := by
  obtain ⟨hbase, hmod, hlen, _, hpost, _⟩ := hr.range
  have h := begun_good (r := { r with enabled := true, dropped := 0, lost := 0 })
    ⟨hbase, hmod, hlen, fun _ => hne, hpost, snapshotReset_inRange _⟩ rfl
  rcases begun_cases r with ⟨hm, hb⟩ | ⟨hm, hb⟩ <;> rw [Ring.enabledFresh, hb] <;>
    simpa only [Ring.begun, hm] using h

theorem partReading_enabledFresh (r : Ring) (part : RingPart) : partReading r.enabledFresh part = false :=
  partReading_begun r part

theorem disabledFresh_good {r : Ring} (hr : RingGood r) : RingGood r.disabledFresh := by
  obtain ⟨hbase, hmod, hlen, _, hpost, _⟩ := hr.range
  exact ⟨(ringSound_disabled rfl).mpr ⟨rfl, rfl⟩, hbase, hmod, hlen, nofun, hpost, snapshotReset_inRange _⟩

theorem partReading_disabledFresh (r : Ring) (part : RingPart) :
    partReading r.disabledFresh part = false :=
  partReading_fresh (.inl rfl) (.inl rfl) part

/-- No part of a disabled ring is READING. -/
theorem RingGood.unread {r : Ring} (hr : RingGood r) (he : r.enabled = false) (part : RingPart) :
    partReading r part = false := by
  obtain ⟨hst, hsn⟩ := (ringSound_disabled he).mp hr.sound
  exact partReading_fresh (.inl hst) (.inl hsn) part

theorem TableMove.sound {s t : State} (h : TableMove s t) (hs : CaptureSound s.capture) :
    CaptureSound t.capture := by
  cases h with
  | sources hr _ _ hc =>
    have hk : ∀ k, t.rings.get k = { s.rings.get k with
        inbox := (t.rings.get k).inbox, freezes := (t.rings.get k).freezes } := fun k => by
      rw [(hr k).1]
    refine ⟨fun k => (hs.rings k).of_inFlight (hk k), fun k part => ?_⟩
    show partReading (t.rings.get k) part = true ↔ ∃ c, t.claim = some c ∧ c.ring = k ∧ c.part = part
    rw [partReading_of_inFlight (hk k), hc]
    exact hs.reading k part
  | written k hz hb =>
    exact hs.set (rewritten_good hz hb (hs.rings k)) (fun p => by rw [partReading_rewritten hz]; rfl) _
  | enabled k hoff hlen _ =>
    refine hs.set (enabledFresh_good (hs.rings k) hlen) (fun p => ?_) _
    rw [partReading_enabledFresh, (hs.rings k).unread hoff]
  | disabled k _ hfree =>
    refine hs.set (disabledFresh_good (hs.rings k)) (fun p => ?_) _
    rw [partReading_disabledFresh]
    refine ⟨nofun, fun hr => ?_⟩
    obtain ⟨c, hc, hk, _⟩ := (hs.reading k p).mp hr
    exact absurd hk (hfree c hc)

/-! #### Items, fills and the words of a readout stay in range -/

/-- An enabled ring's source is enabled, so where a ring may take items its source is enabled (R69). -/
theorem RingOn.source {s : State} (hs : SourcesEnabled s) {k : Fin 8} (h : RingOn s (s.rings.get k)) :
    SourceOn s (s.rings.get k).sourceKind (s.rings.get k).sourceIndex :=
  h.elim (hs.2.2 k) id

/-- The words an item of an enabled source gives depend on its kind, its index and its mode. -/
theorem itemWidth_eq {s t : State} {r y : Ring} (hsrc : SourceOn s r.sourceKind r.sourceIndex)
    (hmode : ∀ j, (s.slots.get j).enabled = true → (t.slots.get j).mode = (s.slots.get j).mode)
    (hk : y.sourceKind = r.sourceKind) (hi : y.sourceIndex = r.sourceIndex) :
    itemWidth t y = itemWidth s r := by
  have hsource : y.source = r.source := by rw [Ring.source, Ring.source, hk, hi]
  simp only [itemWidth, hsource]
  split
  · next j hj =>
    obtain ⟨hkind, hindex⟩ := namedSource_eq_slot.mp hj
    rcases hsrc with ⟨hc, _⟩ | ⟨_, j', hj', he⟩
    · rw [hkind] at hc; cases hc
    · obtain rfl : j' = j := Fin.ext (hj'.trans hindex)
      rw [hmode _ he]
  · rfl

/-- A claimed ring is enabled (R70, R92). -/
theorem CaptureSound.enabled_of_claim {s : State} (hs : CaptureSound s.capture) {c : Claim}
    (hc : s.claim = some c) :
    (s.rings.get c.ring).enabled = true := by
  have hread := hs.claimed hc
  cases he : (s.rings.get c.ring).enabled with
  | true => rfl
  | false =>
    rw [(hs.rings c.ring).unread he] at hread
    cases hread

section
variable {s : State} (hfit : Fitting s)
include hfit

/-- One ring replaced, the sources, their modes and the claim kept. -/
theorem Fitting.setRing {k : Fin 8} {z : Ring}
    (hitems : RingOn s z → ∀ item ∈ z.inbox, GivesWords (itemWidth s z) item)
    (hfills : z.enabled = true → z.mode = .stream → HalvesFit z.length (itemWidth s z) z.stream)
    (hholds : ∀ c, s.claim = some c → c.ring = k → HoldsPart z c) : Fitting (s.setRing k z) := by
  refine ⟨fun j => ?_, fun j => ?_, fun c hc => ?_⟩
  · show RingOn s ((s.rings.set k z).get j) → ∀ item ∈ ((s.rings.set k z).get j).inbox,
      GivesWords (itemWidth s ((s.rings.set k z).get j)) item
    rw [Table.get_set]
    split
    · exact hitems
    · exact hfit.items j
  · show ((s.rings.set k z).get j).enabled = true → ((s.rings.set k z).get j).mode = .stream →
      HalvesFit ((s.rings.set k z).get j).length (itemWidth s ((s.rings.set k z).get j))
        ((s.rings.set k z).get j).stream
    rw [Table.get_set]
    split
    · exact hfills
    · exact hfit.fills j
  · show HoldsPart ((s.rings.set k z).get c.ring) c
    rw [Table.get_set]
    split
    · next hk => exact hholds c hc hk.symm
    · exact hfit.holds c hc

variable (hsrc : SourcesEnabled s) (hs : CaptureSound s.capture)
include hsrc hs

theorem Fitting.written (k : Fin 8) {z : Ring} {mask : Nat} {v : List Byte}
    (hz : (s.rings.get k).write mask v = some z)
    (hb : (s.rings.get k).enabled = true → maskBound .ring mask = false) :
    Fitting (s.setRing k ((s.rings.get k).rewritten z)) := by
  obtain ⟨hen, hst, hsn, hin⟩ := write_keeps hz
  rw [Ring.rewritten_eq]
  refine hfit.setRing (fun hon item hi => ?_) (fun he hm => ?_) fun c hc hk => ?_
  · dsimp only at hi
    split at hi
    · next hsame =>
      obtain ⟨hkind, hindex⟩ := hsame
      have hon : RingOn s (s.rings.get k) := by
        rw [RingOn] at hon ⊢
        rwa [hkind, hindex, hen] at hon
      rw [hin] at hi
      show GivesWords (itemWidth s z) item
      rw [itemWidth_eq (hon.source hsrc) (fun _ _ => rfl) hkind hindex]
      exact hfit.items k hon item hi
    · cases hi
  · have he' := hen.symm.trans he
    obtain ⟨_, hlength, hmode, hkind, hindex⟩ := Ring.write_bound (hb he') hz
    show HalvesFit z.length (itemWidth s z) z.stream
    rw [itemWidth_eq (hsrc.2.2 k he') (fun _ _ => rfl) hkind hindex, hlength, hst]
    exact hfit.fills k he' (hmode.symm.trans hm)
  · subst hk
    obtain ⟨hbase, hlength, _⟩ := Ring.write_bound (hb (hs.enabled_of_claim hc)) hz
    exact (hfit.holds c hc).of_part hbase hlength
      (fun g _ => congrArg (fun x : StreamState => (x.half g).fill) hst)
      fun _ => congrArg SnapshotState.record hsn

theorem TableMove.fitting {t : State} (h : TableMove s t) : Fitting t := by
  cases h with
  | sources hr hmode _ hc =>
    have hwidth : ∀ k, RingOn s (s.rings.get k) →
        itemWidth t (t.rings.get k) = itemWidth s (s.rings.get k) := fun k hon => by
      rw [(hr k).1]
      exact itemWidth_eq (hon.source hsrc) hmode rfl rfl
    refine ⟨fun k hon item hi => ?_, fun k he hm => ?_, fun c hc' => ?_⟩
    · obtain ⟨hk, hitems, hnew⟩ := hr k
      have hon' : RingOn s (s.rings.get k) ∨ (t.rings.get k).inbox = [] := by
        rcases hon with he | hon
        · rw [hk] at he; exact .inl (.inl he)
        · rw [hk] at hon; exact hnew hon
      rcases hon' with hon' | hnone
      · show GivesWords (itemWidth t (t.rings.get k)) item
        rw [hwidth k hon']
        exact hfit.items k hon' item (hitems item hi)
      · exact absurd hi (hnone ▸ List.not_mem_nil)
    · have he' : (s.rings.get k).enabled = true := by rw [← he]; exact (congrArg Ring.enabled (hr k).1).symm
      show HalvesFit (t.rings.get k).length (itemWidth t (t.rings.get k)) (t.rings.get k).stream
      rw [hwidth k (.inl he'), (hr k).1]
      refine hfit.fills k he' ?_
      rw [← hm]; exact (congrArg Ring.mode (hr k).1).symm
    · show HoldsPart (t.rings.get c.ring) c
      rw [(hr c.ring).1]
      exact hfit.holds c (hc.symm.trans hc')
  | written k hz hb => exact hfit.written hsrc hs k hz hb
  | enabled k hoff hlen hon =>
    obtain ⟨hmode, hlength, hkind, hindex, hinbox⟩ := enabledFresh_keeps (s.rings.get k)
    have hwidth := itemWidth_eq hon (t := s) (fun _ _ => rfl) hkind hindex
    refine hfit.setRing (fun _ item hi => ?_) (fun _ hm => ?_) fun c hc hk => ?_
    · rw [hinbox] at hi
      rw [hwidth]
      exact hfit.items k (.inr hon) item hi
    · rw [hlength]
      exact halvesFit_of_begun (hmode.symm.trans hm) ((hs.rings k).range.2.2.1.resolve_left hlen)
    · subst hk
      rw [hs.enabled_of_claim hc] at hoff
      cases hoff
  | disabled k hon hfree =>
    exact hfit.setRing (fun _ item hi => hfit.items k (.inl hon) item hi) nofun
      fun c hc hk => absurd hk (hfree c hc)

end

end Sys2Proof

namespace Sys2Proof

open Sys2Proof.Machine

/-! ### Every step (O5, O8, O9) -/

/-- The settings alone decide what a ring's source gives and whether the ring may take it. -/
theorem width_and_on_of_settings {s t : State} (h : t.settings = s.settings) :
    (fun k => itemWidth t (t.rings.get k)) = (fun k => itemWidth s (s.rings.get k))
      ∧ (fun k => RingOn t (t.rings.get k)) = fun k => RingOn s (s.rings.get k) := by
  obtain ⟨hc, hslot, _, hring⟩ := State.settings_eq_iff.mp h
  have hmode : ∀ j, (t.slots.get j).mode = (s.slots.get j).mode := fun j => (congrArg Slot.mode (hslot j) :)
  have hc := fun c => Channel.of_settings (hc c)
  have hslot := fun k => Slot.of_settings (hslot k)
  have hring := fun k => Ring.of_settings (hring k)
  constructor
  · funext k
    simp only [itemWidth, Ring.source, hring, hmode]
  · funext k
    simp only [RingOn, SourceOn, hring, hc, hslot]

/-- What a command of the tables answers is one of their moves, and then a reply. -/
theorem State.request_tables {P : State → Prop} {s t : State} {code : Nat}
    {run : List Byte → State → Option Answer}
    (hp : ∀ {u v : State}, P u → v.capture = u.capture → v.slots = u.slots →
      v.classifier = u.classifier → P v)
    (hs : P s) (h : s.request code run = .next t)
    (hr : ∀ args status results u, run args s = some (status, results, u) → P u) : P t := by
  rcases State.request_next h with rfl | ⟨q, r, _, rfl⟩ | ⟨q, status, results, u, hu, rfl⟩
  · exact hs
  · rw [repliedOnly_eq]; exact hp hs rfl rfl rfl
  · rw [answered_eq]; exact hp (hr _ _ _ _ hu) rfl rfl rfl

/-- What every move of the capture unit and of the tables keeps, and a hard reset gives, every command
keeps. -/
theorem exec_keeps_of_moves {P : State → Prop} {i : Instr} {s t : State} (hs : P s)
    (h : exec i s = .next t)
    (hreset : ∀ straps, P (s.hardReset straps))
    (hmoves : ∀ {u : State}, Moves s u → u.settings = s.settings → P u)
    (htable : ∀ {u : State}, TableMove s u → P u)
    (hcongr : ∀ {u v : State}, P u → v.capture = u.capture → v.slots = u.slots →
      v.classifier = u.classifier → P v) : P t := by
  by_cases hi : changesSettings i = false
  · exact hmoves (exec_moves hi h) (exec_keeps_settings hi h)
  cases i with
  | hardReset cause straps =>
    simp only [exec, execHardReset] at h
    split at h <;> cases h
    · exact hreset straps
    · exact hs
  | writeEntry =>
    simp only [exec, execWriteEntry] at h
    refine State.request_tables hcongr hs h fun args _ _ u hu => ?_
    split at hu <;> cases hu
    · exact htable (.writeEntry s _ _ _ _)
    · exact hs
  | enable =>
    simp only [exec, execEnable] at h
    refine State.request_tables hcongr hs h fun args _ _ u hu => ?_
    split at hu <;> cases hu
    · exact htable (.enableEntry s _ _)
    · exact hs
  | disable =>
    simp only [exec, execDisable] at h
    refine State.request_tables hcongr hs h fun args _ _ u hu => ?_
    split at hu <;> cases hu
    · exact htable (.disableEntry s _ _)
    · exact hs
  | _ => exact absurd rfl hi

/-- A step is one microsecond or one command on the queue's rest. -/
theorem step_cases {s t : State} (h : step s = .next t) :
    t = s.tick ∨ ∃ c rest, s.pending = c :: rest ∧ exec c { s with pending := rest } = .next t := by
  simp only [step] at h
  split at h
  · cases h; exact .inl rfl
  · next c rest hq => exact .inr ⟨c, rest, hq, h⟩

/-- Settles O5: capture memory is written within its bounds, cleared or left alone by every command. -/
theorem captureMemoryStaysCanonical : Obligations.CaptureMemoryStaysCanonical := by
  intro s t hs h
  rcases step_cases h with rfl | ⟨c, rest, _, h⟩
  · exact hs
  · have hrest : ({ s with pending := rest } : State).memory.wf = true := hs
    refine exec_keeps_of_moves (P := fun u => u.memory.wf = true) hrest h (fun _ => rfl)
      (fun hm _ => CaptureMove.wf hm hrest) (fun ht => by rw [ht.memory]; exact hrest)
      fun {u v} hu hc _ _ => ?_
    have hmem : v.memory = u.memory := congrArg Capture.memory hc
    rw [hmem]; exact hu

/-- Settles O8: each move of the capture unit, the engine and the tables keeps every ring good, and marks a
part READING exactly where it is claimed. -/
theorem ringsStaySound : Obligations.RingsStaySound := by
  intro s t hs h
  rw [← captureSound_iff] at hs ⊢
  rcases step_cases h with rfl | ⟨c, rest, _, h⟩
  · exact hs
  · have hrest : CaptureSound ({ s with pending := rest } : State).capture := hs
    refine exec_keeps_of_moves (P := fun u => CaptureSound u.capture) hrest h (fun straps => ?_)
      (fun hm _ => CaptureMove.sound hm hrest) (fun ht => ht.sound hrest) fun hu hc _ _ => by rw [hc]; exact hu
    exact (captureSound_iff _).mpr ⟨ringsSound_resetWith straps, rangesSound_resetWith straps⟩

/-- Settles O9: a ring takes items of its source's width alone, a claimed part keeps its words, and what a
disabled source has in flight passes by before the source can give items of another width. -/
theorem fillsAndReadoutsStayInRange : Obligations.FillsAndReadoutsStayInRange := by
  rintro s t ⟨hsrc, hsound⟩ hfit h
  rw [← captureSound_iff] at hsound
  rw [← fitting_iff] at hfit ⊢
  rcases step_cases h with rfl | ⟨c, rest, _, h⟩
  · exact hfit
  · have hrest : Fitting { s with pending := rest } := hfit
    have hrest' : CaptureSound ({ s with pending := rest } : State).capture := hsound
    have hrest'' : SourcesEnabled { s with pending := rest } := hsrc
    refine exec_keeps_of_moves (P := Fitting) hrest h (fun straps => ?_) (fun {u} hm hset => ?_)
      (fun ht => ht.fitting hrest hrest'' hrest') fun {u v} hu hc hslots hclass => ?_
    · exact (fitting_iff _).mpr ⟨fillsSound_resetWith straps, readoutInRange_resetWith straps⟩
    · obtain ⟨hwidth, hon⟩ := width_and_on_of_settings hset
      show CaptureFits _ _ _
      rw [hwidth, hon]
      exact CaptureMove.fits hrest hm hrest' (itemWidth_cases _) fun k he => .inl he
    · have hrings : v.rings = u.rings := congrArg Capture.rings hc
      have hwidth : itemWidth v = itemWidth u := by funext r; simp only [itemWidth, hslots]
      have hon : RingOn v = RingOn u := by
        funext r; simp only [RingOn, SourceOn, State.channel, hslots, hclass]
      rw [Fitting, hwidth, hon, hrings, hc]
      exact hu

end Sys2Proof

/-! ## No command stops a sound state (O10) -/

namespace Sys2Proof

open Sys2Proof.Machine

theorem runsOn_captureOutcome {x : Option State} (h : x.isSome = true) :
    runsOn (captureOutcome x) = true := by
  obtain ⟨t, rfl⟩ := Option.isSome_iff_exists.mp h
  rfl

/-! ### The readout engine stays in capture memory (R96, R97) -/

/-- The words a claim names lie in capture memory. -/
def ClaimInMemory (x : Capture) : Prop := ∀ c, x.claim = some c →
  if c.part = .snapshot then
    0 < (x.rings.get c.ring).length
      ∧ (x.rings.get c.ring).base + (x.rings.get c.ring).length ≤ Config.captureWords
  else c.start + c.total ≤ Config.captureWords

/-- The claimed part of sound rings is that of an enabled ring, and its words are in range (R67, R94). -/
theorem CaptureSound.claimInMemory {x : Capture} (hs : CaptureSound x)
    (h : ∀ c, x.claim = some c → HoldsPart (x.rings.get c.ring) c) : ClaimInMemory x := by
  intro c hc
  obtain ⟨_, hhalf, _⟩ := h c hc
  split
  · next hp =>
    have hread := hs.claimed hc
    rw [hp, partReading_snapshot] at hread
    have hring := hs.rings c.ring
    obtain ⟨he, _⟩ := hring.snapshot_of_state (by simp [hread])
    have hlen := hring.length_of_enabled he
    exact ⟨by omega, hring.range.1⟩
  · next hp =>
    cases hpart : c.part.half with
    | none => exact absurd (RingPart.half_eq_none.mp hpart) hp
    | some g =>
      obtain ⟨_, _, _, hmem⟩ := hhalf g hpart
      exact hmem

theorem ClaimInMemory.readout {s : State} (h : ClaimInMemory s.capture) {x : ReadoutRecord}
    (hx : s.readout.engine = .sending x) : ReadoutInMemory s x :=
  h x.claim (claim_of_sending hx)

theorem produceOne_isSome {s : State} (h : ClaimInMemory s.capture) : s.produceOne.isSome = true := by
  simp only [State.produceOne]
  split
  · next x hx =>
    split
    · rw [if_pos (offsetsInMemory_frameOffsets (h.readout hx))]; rfl
    · rfl
  · rfl

theorem produceUpTo_isSome {s : State} (h : ClaimInMemory s.capture) (n : Nat) :
    (s.produceUpTo n).isSome = true := by
  induction n generalizing s with
  | zero => rfl
  | succ n ih =>
    obtain ⟨t, ht⟩ := Option.isSome_iff_exists.mp (produceOne_isSome h)
    rw [State.produceUpTo, ht]
    exact ih (capture_produceOne ht ▸ h)

theorem examineEngine_isSome {s : State} (h : ClaimInMemory s.capture) :
    s.examineEngine.isSome = true :=
  produceUpTo_isSome (capture_placeTerminator s ▸ h) _

/-! ### A ring's words stay in its range (R74, R82) -/

/-- The words that a sound ring takes lie in capture memory. -/
theorem takeWords_inMemory {r : Ring} {w : Nat} {ws : List Int} (hr : RingGood r)
    (hw : w = 1 ∨ w = 2) (hn : ws.length = 0 ∨ ws.length = w)
    (hfits : r.enabled = true → r.mode = .stream → HalvesFit r.length w r.stream) (k : Fin 8) (now : Nat) :
    ∀ c ∈ (r.takeWords k ws now).2.1, c.1 < Config.captureWords := by
  have hbase := hr.range.1
  intro c hc
  simp only [Ring.takeWords] at hc
  split at hc
  · next he =>
    have hlen := hr.length_of_enabled he
    split at hc
    · next hm =>
      simp only [Ring.streamTakes] at hc
      split at hc
      · cases hc
      · cases hc
      · next h hwr =>
        obtain ⟨_, hmod, hlt, _⟩ := hfits he hm h
        have hst := ((sound_filling hwr).mp (hr.stream he hm)).1
        obtain ⟨hle, _⟩ := fill_add hr.length_mod hw hn (hlt hst) hmod
        have hc : c ∈ wordsAt (r.halfStart h + (r.stream.half h).fill) ws := by split at hc <;> exact hc
        obtain ⟨_, hhigh⟩ := wordsAt_mem hc
        rw [halfStart_eq] at hhigh
        split at hhigh <;> omega
    · next hm =>
      have hpos : r.snapshot.position < r.length := by
        obtain ⟨_, _, _, _, _, _, _, hp, _⟩ := hr.range
        omega
      have hc : c ∈ ((roundPositions r.length r.snapshot.position ws.length).map (r.base + ·)).zip ws := by
        simp only [Ring.snapshotTakes] at hc
        split at hc
        · exact hc
        · split at hc <;> exact hc
        · cases hc
      obtain ⟨p, hp, heq⟩ := List.mem_map.mp (List.of_mem_zip hc).1
      have := roundPositions_lt (by omega) hpos p hp
      omega
  · cases hc

/-! ### Requests (R128 to R131) -/

theorem serve_isSome {s : State} {q : Request} {good : Bool} {run : State → Option Answer}
    (h : (run s).isSome = true) : (s.serve q good run).isSome = true := by
  simp only [State.serve]
  split
  · rfl
  · split
    · rfl
    · split
      · rw [Option.isSome_map]; exact h
      · rfl

theorem runsOn_request {s : State} {code : Nat} {run : List Byte → State → Option Answer}
    (h : ∀ args, (run args s).isSome = true) : runsOn (s.request code run) = true := by
  simp only [State.request]
  split
  · next q _ =>
    split
    · exact runsOn_captureOutcome (serve_isSome (h q.args))
    · rfl
  · rfl

theorem runsOn_gather {s : State} {code : Nat} {blocks : List Block} {work : Block → State → State}
    {answer : State → Answer} : runsOn (s.gather code blocks work answer) = true := by
  simp only [State.gather]
  split
  · rfl
  · exact runsOn_request fun _ => rfl

/-! ### Every command -/

section
variable {s : State} (hs : CaptureSound s.capture) (hfit : Fitting s)
include hs hfit

theorem claimInMemory : ClaimInMemory s.capture := hs.claimInMemory hfit.holds

/-- Where a move leads, the engine's words lie in capture memory too. -/
theorem Moves.claimInMemory {t : State} (h : Moves s t) : ClaimInMemory t.capture :=
  (CaptureMove.sound h hs).claimInMemory
    (CaptureMove.fits hfit h hs (itemWidth_cases s) fun _ he => .inl he).holds

theorem runsOn_ringTakeItem (k : Fin 8) : runsOn (execRingTakeItem k s) = true := by
  simp only [execRingTakeItem]
  split
  · rfl
  · rfl
  · next item items _ hinbox =>
    refine runsOn_captureOutcome ?_
    have hgood := (hs.rings k).leaving items (s.rings.get k).freezes
    by_cases he : (s.rings.get k).enabled = true
    · have hmem : ∀ c ∈ (({ s.rings.get k with inbox := items } : Ring).takeWords k item.words
          s.timebase).2.1, c.1 < Config.captureWords :=
        takeWords_inMemory hgood (itemWidth_cases s _)
          (hfit.items k (.inl he) item (hinbox ▸ List.mem_cons_self)) (hfit.fills k) k s.timebase
      simp only [State.ringTakesWords, State.writeWords]
      rw [if_pos]
      · rfl
      · rw [offsetsInMemory_iff]
        simpa using fun a b hab => hmem (a, b) hab
    · simp [State.ringTakesWords, Ring.takeWords, he, State.writeWords, offsetsInMemory]

theorem grant_isSome (c : Claimant) : (s.grant c).isSome = true := by
  cases c with
  | mr => rfl
  | ev => rfl
  | fw => rfl
  | dt =>
    simp only [State.grant, State.grantDt]
    split
    · have hclaim := Sys2Proof.claimInMemory hs hfit
      split
      · next f _ =>
        exact examineEngine_isSome (Moves.claimInMemory hs hfit ((Moves.engineGranted _ f).of_start rfl rfl))
      · exact examineEngine_isSome hclaim
    · rfl

theorem readRing_isSome (k : Fin 8) (part : RingPart) : (s.readRing k part).isSome = true := by
  simp only [State.readRing]
  split
  · next hst =>
    rw [Option.isSome_map]
    exact examineEngine_isSome (Moves.claimInMemory hs hfit (.acceptReadout hst))
  · rfl

/-- No command stops a sound state: those that reach capture memory stay in it, and every other gives a
next state in each of its cases. -/
theorem exec_runsOn (i : Instr) : runsOn (exec i s) = true := by
  have hclaim := Sys2Proof.claimInMemory hs hfit
  cases i with
  | ringTakeItem k => exact runsOn_ringTakeItem hs hfit k
  | readoutFrameProduce => exact runsOn_captureOutcome (produceOne_isSome hclaim)
  | arbiterGrant =>
    simp only [exec, execArbiterGrant]
    split
    · split
      · exact runsOn_captureOutcome (grant_isSome hs hfit _)
      · rfl
    · rfl
  | cPortComingUpEgress =>
    simp only [exec, execCPortComingUpEgress]
    split
    · split
      · refine runsOn_captureOutcome (examineEngine_isSome ?_)
        exact hclaim
      · rfl
    · rfl
  | readRing =>
    simp only [exec, execReadRing]
    refine runsOn_request fun args => ?_
    split
    · exact readRing_isSome hs hfit _ _
    · rfl
  | readStatus =>
    simp only [exec, execReadStatus]
    exact runsOn_gather
  | clearCounters =>
    simp only [exec, execClearCounters]
    exact runsOn_gather
  | restart =>
    simp only [exec, execRestart]
    exact runsOn_gather
  | readEntry =>
    simp only [exec, execReadEntry]
    exact runsOn_request fun args => by split <;> rfl
  | writeEntry =>
    simp only [exec, execWriteEntry]
    exact runsOn_request fun args => by split <;> rfl
  | enable =>
    simp only [exec, execEnable]
    exact runsOn_request fun args => by split <;> rfl
  | disable =>
    simp only [exec, execDisable]
    exact runsOn_request fun args => by split <;> rfl
  | abortRead =>
    simp only [exec, execAbortRead]
    exact runsOn_request fun args => by split <;> rfl
  | releaseHalf =>
    simp only [exec, execReleaseHalf]
    exact runsOn_request fun args => by split <;> rfl
  | eventAck =>
    simp only [exec, execEventAck]
    exact runsOn_request fun args => by split <;> rfl
  | eventResync =>
    simp only [exec, execEventResync]
    exact runsOn_request fun args => by split <;> rfl
  | ident =>
    simp only [exec, execIdent]
    exact runsOn_request fun _ => rfl
  | setTime =>
    simp only [exec, execSetTime]
    exact runsOn_request fun _ => rfl
  | flushRing =>
    simp only [exec, execFlushRing]
    exact runsOn_request fun _ => rfl
  | freezeRing =>
    simp only [exec, execFreezeRing]
    exact runsOn_request fun _ => rfl
  | rearmRing =>
    simp only [exec, execRearmRing]
    exact runsOn_request fun _ => rfl
  | startSlot =>
    simp only [exec, execStartSlot]
    exact runsOn_request fun _ => rfl
  | unknownCode =>
    simp only [exec, execUnknownCode]
    split
    · split
      · rfl
      · exact runsOn_captureOutcome (serve_isSome rfl)
    · rfl
  | hardReset cause straps => simp only [exec, execHardReset]; split <;> rfl
  | initialisationComplete => simp only [exec, execInitialisationComplete]; split <;> rfl
  | receiveTrain p heard =>
    simp only [exec, execReceiveTrain]
    split
    · rfl
    · split <;> rfl
    · split <;> rfl
  | undecodableSymbol p => simp only [exec, execUndecodableSymbol]; split <;> rfl
  | receiveHold p | receiveGo p | terminatingFramePlace => rfl
  | lossOfLock p => simp only [exec, execLossOfLock]; split <;> rfl
  | frameReceived p bytes => simp only [exec, execFrameReceived]; split <;> rfl
  | holdSentChange p => simp only [exec, execHoldSentChange]; split <;> rfl
  | flowSymbolRepeat p => simp only [exec, execFlowSymbolRepeat]; split <;> rfl
  | frameSendComplete p => simp only [exec, execFrameSendComplete]; split <;> rfl
  | sampleFrameTaken => simp only [exec, execSampleFrameTaken]; split <;> rfl
  | fPortLeavingUpClassifier => simp only [exec, execFPortLeavingUpClassifier]; split <;> rfl
  | fwPlace way =>
    cases way <;> simp only [exec, execFwPlace] <;> split
    · rfl
    · rfl
    · split <;> rfl
    · rfl
  | slotTakeSample k => simp only [exec, execSlotTakeSample]; split <;> rfl
  | slotTakeGapMark k => simp only [exec, execSlotTakeGapMark]; split <;> rfl
  | slotStart k => simp only [exec, execSlotStart]; split <;> rfl
  | ruleTakeValue k =>
    simp only [exec, execRuleTakeValue]
    split
    · rfl
    · split <;> rfl
  | ruleTakeGapMark k => simp only [exec, execRuleTakeGapMark]; split <;> rfl
  | ringTakeGapMark k => simp only [exec, execRingTakeGapMark]; split <;> rfl
  | ringFreeze k rule => simp only [exec, execRingFreeze]; split <;> rfl
  | assemblerTakeRecord k => simp only [exec, execAssemblerTakeRecord]; split <;> rfl
  | reducedHoldExpiry => simp only [exec, execReducedHoldExpiry]; split <;> rfl
  | eventEnqueue r => simp only [exec, execEventEnqueue]; split <;> rfl
  | retransmitTimeout => simp only [exec, execRetransmitTimeout]; split <;> rfl
  | deliverySuspend => simp only [exec, execDeliverySuspend]; split <;> rfl
  | deliveryResume => simp only [exec, execDeliveryResume]; split <;> rfl
  | obSend =>
    simp only [exec, execObSend]
    split
    · split <;> rfl
    · rfl
  | cPortLeavingUpEgress => simp only [exec, execCPortLeavingUpEgress]; split <;> rfl
  | fPortLeavingUpEgress => simp only [exec, execFPortLeavingUpEgress]; split <;> rfl
  | requestTooShort =>
    simp only [exec, execRequestTooShort]
    split
    · split <;> rfl
    · rfl

end

/-- Settles O10: of a sound state the words of items, halves and readouts lie in their ranges, so no command
reaches outside capture memory, which is all that could stop one. -/
theorem soundStatesRunOn : Obligations.SoundStatesRunOn := by
  intro s hrings hranges hfills hreadout
  have hs := (captureSound_iff s).mpr ⟨hrings, hranges⟩
  have hfit := (fitting_iff s).mpr ⟨hfills, hreadout⟩
  simp only [step]
  split
  · rfl
  · next c rest _ =>
    have hs' : CaptureSound ({ s with pending := rest } : State).capture := hs
    have hfit' : Fitting { s with pending := rest } := hfit
    exact exec_runsOn hs' hfit' c

end Sys2Proof

/-! ## Hard reset and initialisation (O15) -/

namespace Sys2Proof

open Sys2Proof.Machine

theorem hardReset_eq (s : State) (straps : Fin 16) : s.hardReset straps = { State.resetWith straps with
    fPort := { Port.reset with line :=
      s.fPort.line ++ (if s.fPort.sending = none then [] else [.frameCut]) }
    cPort := { Port.reset with line :=
      s.cPort.line ++ (if s.cPort.sending = none then [] else [.frameCut]) }
    choices := s.choices
    pending := s.pending } := by
  simp only [State.hardReset, Port.hardReset, Port.cutFrame_eq]

/-- The STARTED record alone stands in the queue it begins (R112, R113). -/
theorem started_eq (e : EventUnit) (cause : Nat) : e.started cause = { e with
    queue := [ownRecord .started cause none 0 0]
    serial := 1 } := by
  simp only [EventUnit.started, EventUnit.append, List.nil_append]
  rfl

/-- Settles O15. -/
theorem hardResetAndInitialisation : Obligations.HardResetAndInitialisation := by
  refine ⟨fun cause straps s hcause => ?_, fun micros straps s hlow => ?_, fun s hphase => ?_⟩
  · have heffect : resetTakesEffect cause = true := by
      rcases hcause with rfl | ⟨micros, rfl, hlow⟩
      · rfl
      · exact decide_eq_true hlow
    rw [← hardReset_eq]
    simp only [exec, execHardReset, heffect, if_true]
  · have heffect : resetTakesEffect (.rstnLow micros) = false :=
      decide_eq_false (by simp only [Config.resetLowTime]; omega)
    simp [exec, execHardReset, heffect]
  · refine ⟨_, by simp only [exec, execInitialisationComplete, hphase]; rfl, rfl, rfl, fun _ => rfl, ?_, ?_,
      fun p => by cases p <;> rfl, ?_⟩ <;> rw [started_eq]
    rfl

end Sys2Proof

/-! ## A ring takes a gap mark (O38) -/

namespace Sys2Proof

open Sys2Proof.Machine

/-- The whole of RING_TAKE_GAP_MARK where a mark is next (R77, R87). -/
theorem exec_ringTakeGapMark {k : Fin 8} {s : State} {items : List StreamItem}
    (hi : (s.rings.get k).inbox = .mark :: items) : exec (.ringTakeGapMark k) s
      = .next (s.setRing k ({ s.rings.get k with inbox := items } : Ring).takeMark) := by
  simp only [exec, execRingTakeGapMark, hi]

/-- Settles O38: an equation per state of the writer and of the snapshot. -/
theorem ringTakesGapMark : Obligations.RingTakesGapMark := by
  refine ⟨fun k s items hi he => ?_, fun k s r items hr hi he => ?_⟩
  · rw [exec_ringTakeGapMark hi]
    simp only [Ring.takeMark, he, Bool.false_eq_true, if_false]
  · subst hr
    refine ⟨fun h hm hw => ?_, fun h hm hw => ?_, fun hm hst => ?_, fun hm hst => ?_⟩ <;>
      rw [exec_ringTakeGapMark hi] <;>
      simp only [Ring.takeMark, he, if_true, hm, StreamState.takeMark, SnapshotState.takeMark]
    · simp only [hw]
    · simp only [hw]
    · rcases hst with h | h <;> simp only [h]
    · rcases hst with h | h <;> simp only [h]

end Sys2Proof

/-! ## Requests that move a ring (O57) -/

namespace Sys2Proof

open Sys2Proof.Machine

/-- A request with a ring number as its one argument answers what its operation at that ring gives, without
results. -/
theorem exec_atRing {c : Instr} {code : Nat} {op : State → Fin 8 → Status × State} {s t : State}
    {q : Request} {b : Byte} {status : Status} (hq : Executes s q code)
    (hx : exec c s = s.request code fun args u =>
      some (bare (atIndex (indexBelow 8 (byteAt args 0)) u (op u))))
    (hl : argumentLengthGood code [b] = true) (ha : q.args = [b])
    (h : atIndex (indexBelow 8 b.toNat) s (op s) = (status, t)) :
    exec c s = .next (answered t q status []) := by
  refine hq.exec_answers (run := fun args u =>
    some (bare (atIndex (indexBelow 8 (byteAt args 0)) u (op u)))) hx (ha ▸ hl) ?_
  rw [ha]
  exact congrArg (fun y => some (bare y)) h

theorem halfOf_eq_none {n : Nat} (h : 2 ≤ n) : halfOf n = none := by
  rw [halfOf, if_neg (by omega), if_neg (by omega)]

theorem halfOf_of_number {n : Nat} {h : HalfId} (hn : n = if h = .a then 0 else 1) :
    halfOf n = some h := by
  subst hn; cases h <;> rfl

/-- What RELEASE_HALF answers for its arguments (R78). -/
def releaseHalfAnswer (args : List Byte) (u : State) : Option Answer :=
  match indexBelow 8 (byteAt args 0), halfOf (byteAt args 1) with
  | some k, some g => some (bare (u.releaseHalf k g))
  | _, _ => some (.badValue, [], u)

section
variable {s : State} {q : Request} {ring half : Byte} (hq : Executes s q 0x0B) (ha : q.args = [ring, half])
include hq ha

/-- RELEASE_HALF answers what its operation at the half that its arguments name gives (R78). -/
theorem exec_releaseHalf {t : State} {status : Status} {k : Fin 8} {g : HalfId}
    (hk : k.val = ring.toNat) (hg : half.toNat = if g = .a then 0 else 1)
    (h : s.releaseHalf k g = (status, t)) : exec .releaseHalf s = .next (answered t q status []) := by
  refine hq.exec_answers (results := []) (run := releaseHalfAnswer) rfl (ha ▸ rfl) ?_
  have hk' : indexBelow 8 (byteAt q.args 0) = some k := by rw [ha]; exact indexBelow_of_val hk.symm
  have hg' : halfOf (byteAt q.args 1) = some g := by rw [ha]; exact halfOf_of_number hg
  simp only [releaseHalfAnswer, hk', hg', h]
  rfl

/-- A number that names no ring or no half is refused (R78 check 1). -/
theorem exec_releaseHalf_bad (hbad : 8 ≤ ring.toNat ∨ 2 ≤ half.toNat) :
    exec .releaseHalf s = .next (answered s q .badValue []) := by
  refine hq.exec_answers (results := []) (run := releaseHalfAnswer) rfl (ha ▸ rfl) ?_
  rcases hbad with hbad | hbad
  · have hk : indexBelow 8 (byteAt q.args 0) = none := by rw [ha]; exact indexBelow_eq_none hbad
    simp only [releaseHalfAnswer, hk]
  · have hg : halfOf (byteAt q.args 1) = none := by rw [ha]; exact halfOf_eq_none hbad
    cases hk : indexBelow 8 (byteAt q.args 0) <;> simp only [releaseHalfAnswer, hk, hg]

end

section
variable {s : State} {k : Fin 8} {h : HalfId} {r : Ring} (hr : r = s.rings.get k)
include hr

/-- A half that no writer awaits is EMPTY once released (R78). -/
theorem releaseHalf_full (he : r.enabled = true) (hm : r.mode = .stream)
    (hst : (r.stream.half h).state = .full) :
    s.releaseHalf k h = (.ok, s.setRing k { r with stream := r.stream.release h }) := by
  subst hr
  simp only [State.releaseHalf, he, hm, hst, Bool.true_eq_false, reduceCtorEq, if_false]

/-- A FILLING half with words is closed by a flush (R75, R79). -/
theorem flushRing_filling (he : r.enabled = true) (hm : r.mode = .stream)
    (hw : r.stream.writer = .filling h) (hf : (r.stream.half h).fill ≠ 0) :
    s.flushRing k = (.ok, (s.setRing k (r.closeHalf k h s.timebase).1).requestEvents
      (r.closeHalf k h s.timebase).2) := by
  subst hr
  simp only [State.flushRing, he, hm, hw, hf, Bool.true_eq_false, reduceCtorEq, if_false]

end

/-- Settles O57: the checks of each request in their order, and its operation at the ring. -/
theorem ringRequestsMoveTheRing : Obligations.RingRequestsMoveTheRing := by
  refine ⟨fun s q ring half hq ha => ⟨exec_releaseHalf_bad hq ha,
    fun k h r hk hr hh => ?_⟩, fun s q ring hq ha => ⟨fun hbad => ?_, fun k r hk hr => ?_⟩,
    fun s q ring hq ha => ⟨fun hbad => ?_, fun k r hk hr => ?_⟩⟩
  · have answer {status u} (hs : s.releaseHalf k h = (status, u)) :
        exec .releaseHalf s = .next (answered u q status []) :=
      exec_releaseHalf hq ha hk hh hs
    refine ⟨fun he => answer ?_, fun he hm => answer ?_, fun he hm => ⟨fun hst => answer ?_,
      fun hst => answer ?_, fun hst hw => ?_, fun hst hw => ?_⟩⟩
    · subst hr; simp [State.releaseHalf, he]
    · subst hr; simp [State.releaseHalf, he, hm]
    · subst hr; simp [State.releaseHalf, he, hm, hst]
    · subst hr
      rcases hst with hst | hst <;> simp [State.releaseHalf, he, hm, hst]
    · rw [answer (releaseHalf_full hr he hm hst), StreamState.release, if_neg hw]
      rfl
    · rw [answer (releaseHalf_full hr he hm hst), StreamState.release, if_pos hw]
      simp [StreamState.beginFilling]
  · exact exec_atRing hq rfl rfl ha (by rw [indexBelow_eq_none hbad]; rfl)
  · have answer {status u} (hs : s.flushRing k = (status, u)) :
        exec .flushRing s = .next (answered u q status []) :=
      exec_atRing hq rfl rfl ha (by rw [indexBelow_of_val hk.symm]; exact hs)
    refine ⟨fun he => answer ?_, fun he hm => answer ?_, fun h he hm hw => answer ?_,
      fun h he hm hw => ⟨fun hf => answer ?_, fun hf _ => ?_⟩⟩
    · subst hr; simp [State.flushRing, he]
    · subst hr; simp [State.flushRing, he, hm]
    · subst hr; simp [State.flushRing, he, hm, hw]
    · subst hr; simp [State.flushRing, he, hm, hw, hf]
    · obtain ⟨hclosed, hrequests⟩ := r.closeHalf_spec k h s.timebase
      refine ⟨_, hclosed, ?_⟩
      rw [answer (flushRing_filling hr he hm hw hf), hrequests]
      rfl
  · exact exec_atRing hq rfl rfl ha (by rw [indexBelow_eq_none hbad]; rfl)
  · have answer {status u} (hs : s.rearmRing k = (status, u)) :
        exec .rearmRing s = .next (answered u q status []) :=
      exec_atRing hq rfl rfl ha (by rw [indexBelow_of_val hk.symm]; exact hs)
    refine ⟨fun he => answer ?_, fun he hm => answer ?_, fun he hm hst => answer ?_,
      fun he hm hst => answer ?_, fun he hm hst => answer ?_⟩
    · subst hr; simp [State.rearmRing, he]
    · subst hr; simp [State.rearmRing, he, hm]
    · subst hr; simp [State.rearmRing, he, hm, hst]
    · subst hr
      rcases hst with hst | hst <;> simp [State.rearmRing, he, hm, hst]
    · subst hr
      simp [State.rearmRing, he, hm, hst, SnapshotState.begun, SnapshotState.reset]

end Sys2Proof

/-! ## A ring takes words (O36, O37) -/

namespace Sys2Proof

open Sys2Proof.Machine

/-! ### Reading back what is written (R65) -/

section
variable {m : CaptureMemory} {os : List Nat} {ws : List Int} (hm : m.wf = true)
  (hin : ∀ o ∈ os, o < Config.captureWords)
include hm hin

theorem read_writeAll_zip_other {o : Nat} (ho : o ∉ os) : (m.writeAll (os.zip ws)).read o = m.read o :=
  CaptureMemory.read_writeAll_other hm (fun _ hw => hin _ (List.of_mem_zip hw).1)
    fun _ hw heq => ho (heq ▸ (List.of_mem_zip hw).1)

/-- Words written at distinct offsets read back each at its own. -/
theorem read_writeAll_zip (hnodup : os.Nodup) (hlen : os.length = ws.length) {j : Nat}
    (hj : j < os.length) : (m.writeAll (os.zip ws)).read os[j] = ws.getD j 0 := by
  induction os generalizing m ws j with
  | nil => cases hj
  | cons a os ih =>
    cases ws with
    | nil => cases hlen
    | cons w ws =>
      obtain ⟨ha, hnodup⟩ := List.nodup_cons.mp hnodup
      have hin' : ∀ o ∈ os, o < Config.captureWords := fun o ho => hin o (List.mem_cons_of_mem _ ho)
      have hwf : (m.write a w).wf = true := CaptureMemory.write_wf hm (hin a List.mem_cons_self)
      cases j with
      | zero =>
        show ((m.write a w).writeAll (os.zip ws)).read a = w
        rw [read_writeAll_zip_other hwf hin' ha, CaptureMemory.read_write hm, if_pos rfl]
      | succ j => exact ih hwf hin' hnodup (Nat.succ.inj hlen) (Nat.lt_of_succ_lt_succ hj)

end

theorem wordsAt_eq (start : Nat) (ws : List Int) :
    wordsAt start ws = (List.range' start ws.length).zip ws := by
  induction ws generalizing start with
  | nil => rfl
  | cons w ws ih => simp [wordsAt, ih, List.range'_succ]

/-- Words written from an offset on (R74). -/
theorem read_writeAll_wordsAt {m : CaptureMemory} (hm : m.wf = true) {start : Nat} {ws : List Int}
    (hin : start + ws.length ≤ Config.captureWords) (o : Nat) :
    (m.writeAll (wordsAt start ws)).read o
      = if start ≤ o ∧ o < start + ws.length then ws.getD (o - start) 0 else m.read o := by
  have hin' : ∀ a ∈ List.range' start ws.length, a < Config.captureWords := by
    intro a ha
    obtain ⟨_, ha⟩ := List.mem_range'_1.mp ha
    omega
  rw [wordsAt_eq]
  split
  · next ho =>
    have hj : o - start < (List.range' start ws.length).length := by rw [List.length_range']; omega
    have hread := read_writeAll_zip (ws := ws) hm hin' List.nodup_range' (by simp) hj
    rw [List.getElem_range'] at hread
    rwa [show start + 1 * (o - start) = o by omega] at hread
  · next ho => exact read_writeAll_zip_other hm hin' fun hmem => ho (List.mem_range'_1.mp hmem)

/-- The positions of words written round a range, the first in it (R82). -/
theorem roundPositions_eq {length position : Nat} (hp : position < length) (n : Nat) :
    roundPositions length position n = (List.range n).map fun j => (position + j) % length := by
  induction n generalizing position with
  | zero => rfl
  | succ n ih =>
    rw [roundPositions, ih (Nat.mod_lt _ (by omega)), List.range_succ_eq_map, List.map_cons, List.map_map]
    refine congrArg₂ _ (Nat.mod_eq_of_lt hp).symm (List.map_congr_left fun j _ => ?_)
    simp only [Function.comp_apply, Nat.succ_eq_add_one, Nat.mod_add_mod]
    congr 1
    omega

/-- Fewer words than the range holds go to distinct positions. -/
theorem roundPositions_injective {length position i j : Nat}
    (hi : i < length) (hj : j < length) (h : (position + i) % length = (position + j) % length) :
    i = j := by
  have hcancel : i ≡ j [MOD length] := Nat.ModEq.add_left_cancel' position h
  rwa [Nat.ModEq, Nat.mod_eq_of_lt hi, Nat.mod_eq_of_lt hj] at hcancel

/-! ### What an item does at a ring -/

/-- The items that give words, and the words each gives (R71). -/
theorem words_of_item {item : StreamItem} {ws : List Int}
    (h : (∃ v i, item = .sample v i ∧ ws = [v])
      ∨ ∃ o : OutputRecord, item = .record o
        ∧ ((∃ v, o.data = .value v ∧ ws = [v]) ∨ ∃ u v, o.data = .peak u v ∧ ws = [u, v])) :
    item ≠ .mark ∧ item.words = ws := by
  rcases h with ⟨v, i, rfl, rfl⟩ | ⟨o, rfl, ⟨v, hd, rfl⟩ | ⟨u, v, hd, rfl⟩⟩
  · exact ⟨nofun, rfl⟩
  · exact ⟨nofun, by simp only [StreamItem.words, hd]⟩
  · exact ⟨nofun, by simp only [StreamItem.words, hd]⟩

section
variable {k : Fin 8} {s : State} {item : StreamItem} {items : List StreamItem}
  (hi : (s.rings.get k).inbox = item :: items) (hmark : item ≠ .mark)
include hi hmark

/-- The whole of RING_TAKE_ITEM where the ring's operation writes inside capture memory (R71). -/
theorem exec_ringTakeItem {y : Ring} {writes : List (Nat × Int)} {requests : List EventRequest}
    (h : ({ s.rings.get k with inbox := items } : Ring).takeWords k item.words s.timebase
      = (y, writes, requests))
    (hin : ∀ c ∈ writes, c.1 < Config.captureWords) :
    exec (.ringTakeItem k) s = .next { s.setRing k y with
      memory := s.memory.writeAll writes
      events := { s.events with requests := s.events.requests ++ requests } } := by
  have hoffsets : offsetsInMemory (writes.map (·.1)) = true := by
    rw [offsetsInMemory_iff]
    simpa using fun a b hab => hin (a, b) hab
  have htakes : s.ringTakesWords k { s.rings.get k with inbox := items } item.words
      = some { s.setRing k y with
        memory := s.memory.writeAll writes
        events := { s.events with requests := s.events.requests ++ requests } } := by
    simp only [State.ringTakesWords, h, State.writeWords, hoffsets, if_true]
    rfl
  cases item with
  | mark => exact absurd rfl hmark
  | sample v i => simp only [exec, execRingTakeItem, hi, htakes]; rfl
  | record o => simp only [exec, execRingTakeItem, hi, htakes]; rfl

/-- Where the ring's operation writes nothing and asks for nothing. -/
theorem exec_ringTakeItem_writesNothing {y : Ring}
    (h : ({ s.rings.get k with inbox := items } : Ring).takeWords k item.words s.timebase
      = (y, [], [])) : exec (.ringTakeItem k) s = .next (s.setRing k y) := by
  rw [exec_ringTakeItem hi hmark h (by simp), List.append_nil]
  rfl

end

/-! ### STREAM rings (O36) -/

section
variable {r : Ring} {h : HalfId} {ws : List Int} (he : r.enabled = true)
include he

theorem takeWords_stalled (hm : r.mode = .stream) (hw : r.stream.writer = .stalled h) (k : Fin 8)
    (now : Nat) : r.takeWords k ws now
      = ({ r with dropped := min (r.dropped + ws.length) 4294967295 }, [], []) := by
  simp only [Ring.takeWords, he, if_true, hm, Ring.streamTakes, hw]
  rfl

/-- The words go to the half's next offsets, and at half the range the half is closed (R74, R75). -/
theorem takeWords_filling (hm : r.mode = .stream) (hw : r.stream.writer = .filling h) {filled : Ring}
    (hf : filled = { r with stream := r.stream.setHalf h { r.stream.half h with
      fill := (r.stream.half h).fill + ws.length } }) (k : Fin 8) (now : Nat) :
    r.takeWords k ws now = (
      if (r.stream.half h).fill + ws.length < r.length / 2 then filled
        else (filled.closeHalf k h now).1,
      wordsAt (r.base + (if h = .a then 0 else r.length / 2) + (r.stream.half h).fill) ws,
      if (r.stream.half h).fill + ws.length < r.length / 2 then []
        else (filled.closeHalf k h now).2) := by
  subst hf
  simp only [Ring.takeWords, he, if_true, hm, Ring.streamTakes, hw, Ring.fillHalf, Ring.halfLength,
    halfStart_eq, StreamState.half_setHalf_self]
  split <;> rfl

end

/-- Settles O36. -/
theorem streamRingTakesWords : Obligations.StreamRingTakesWords := by
  refine ⟨fun k s item items hi hmark he => ?_, fun k s r item items ws hwf hr hi he hm hitem =>
    ⟨fun h hw => ?_, fun h start filled hw _ hstart hend hfilled => ?_⟩⟩
  · exact exec_ringTakeItem_writesNothing hi hmark (by simp [Ring.takeWords, he])
  all_goals
    subst hr
    obtain ⟨hmark, rfl⟩ := words_of_item hitem
  · exact exec_ringTakeItem_writesNothing hi hmark
      (takeWords_stalled (r := { s.rings.get k with inbox := items }) he hm hw k s.timebase)
  · have htakes := takeWords_filling (r := { s.rings.get k with inbox := items }) he hm hw hfilled k
      s.timebase
    dsimp only at htakes
    rw [← hstart] at htakes
    refine ⟨_, _, exec_ringTakeItem hi hmark htakes fun c hc => ?_,
      fun o => read_writeAll_wordsAt hwf hend o, fun hlt => ?_, fun hge => ?_, rfl⟩
    · obtain ⟨_, hhigh⟩ := wordsAt_mem hc
      exact Nat.lt_of_lt_of_le hhigh hend
    · simp only [if_pos hlt, List.append_nil, and_self]
    · obtain ⟨hclosed, hrequests⟩ := filled.closeHalf_spec k h s.timebase
      simp only [if_neg (Nat.not_lt.mpr hge), hrequests]
      exact ⟨hclosed, trivial⟩

/-! ### SNAPSHOT rings (O37) -/

/-- The offsets of words written round a ring's range (R82). -/
def roundOffsets (r : Ring) (n : Nat) : List Nat :=
  (List.range n).map fun j => r.base + (r.snapshot.position + j) % r.length

section
variable {r : Ring} {n : Nat}

theorem mem_roundOffsets {o : Nat} : o ∈ roundOffsets r n
    ↔ ∃ j, j < n ∧ o = r.base + (r.snapshot.position + j) % r.length := by
  simp [roundOffsets, eq_comm]

theorem roundOffsets_inMemory (hl : 0 < r.length) (hbase : r.base + r.length ≤ Config.captureWords) :
    ∀ o ∈ roundOffsets r n, o < Config.captureWords := by
  intro o ho
  obtain ⟨j, _, rfl⟩ := mem_roundOffsets.mp ho
  have := Nat.mod_lt (r.snapshot.position + j) hl
  omega

theorem roundOffsets_nodup (hn : n ≤ r.length) : (roundOffsets r n).Nodup := by
  refine List.Nodup.map_on (fun i hi j hj h => ?_) List.nodup_range
  rw [List.mem_range] at hi hj
  exact roundPositions_injective (by omega) (by omega) (Nat.add_left_cancel h)

end

section
variable {r : Ring} {ws : List Int} (he : r.enabled = true) (hm : r.mode = .snapshot) (k : Fin 8) (now : Nat)
include he hm

theorem takeWords_frozen (hst : r.snapshot.state = .frozen ∨ r.snapshot.state = .reading) :
    r.takeWords k ws now = (r, [], []) := by
  rcases hst with h | h <;> simp [Ring.takeWords, he, hm, Ring.snapshotTakes, h]

variable (hp : r.snapshot.position < r.length) {written : Ring}
  (hw : written = { r with snapshot := { r.snapshot with
    position := (r.snapshot.position + ws.length) % r.length
    valid := min (r.snapshot.valid + ws.length) r.length
    remaining := if r.snapshot.state = .countdown then r.snapshot.remaining - ws.length
      else r.snapshot.remaining } })
include hp hw

theorem takeWords_run (hst : r.snapshot.state = .run) :
    r.takeWords k ws now = (written, (roundOffsets r ws.length).zip ws, []) := by
  subst hw
  simp only [Ring.takeWords, he, if_true, hm, Ring.snapshotTakes, hst, SnapshotState.written,
    roundPositions_eq hp, roundOffsets, List.map_map, reduceCtorEq, if_false]
  rfl

/-- In COUNTDOWN the words count down what remains, and the last of them freezes the ring (R84, R85). -/
theorem takeWords_countdown (hst : r.snapshot.state = .countdown) {p : PendingTrigger}
    (hpend : r.snapshot.pending = some p) : r.takeWords k ws now = (
      if r.snapshot.remaining ≤ ws.length then (written.goFrozen k p now).1 else written,
      (roundOffsets r ws.length).zip ws,
      if r.snapshot.remaining ≤ ws.length then (written.goFrozen k p now).2 else []) := by
  subst hw
  simp only [Ring.takeWords, he, if_true, hm, Ring.snapshotTakes, hst, hpend, SnapshotState.written,
    roundPositions_eq hp, roundOffsets, List.map_map, Nat.sub_eq_zero_iff_le]
  split <;> rfl

end

/-- Settles O37. -/
theorem snapshotRingTakesWords : Obligations.SnapshotRingTakesWords := by
  intro k s r item items ws hwf hr hi he hm hitem
  subst hr
  obtain ⟨hmark, rfl⟩ := words_of_item hitem
  refine ⟨fun hst => exec_ringTakeItem_writesNothing hi hmark
    (takeWords_frozen (r := { s.rings.get k with inbox := items }) he hm k s.timebase hst),
    fun written hlen hbase hpos hwritten hst => ?_⟩
  have hin := roundOffsets_inMemory (r := s.rings.get k) (n := item.words.length) (by omega) hbase
  have hnodup := roundOffsets_nodup (r := s.rings.get k) (n := item.words.length)
    (item.words_length.trans (by omega))
  have hcount : (roundOffsets (s.rings.get k) item.words.length).length = item.words.length := by
    simp [roundOffsets]
  have hread : ∀ j, j < item.words.length →
      (s.memory.writeAll ((roundOffsets (s.rings.get k) item.words.length).zip item.words)).read
        ((s.rings.get k).base + ((s.rings.get k).snapshot.position + j) % (s.rings.get k).length)
      = item.words.getD j 0 := fun j hj => by
    have h := read_writeAll_zip hwf hin hnodup hcount (hcount.symm ▸ hj)
    simpa only [roundOffsets, List.getElem_map, List.getElem_range] using h
  have hother : ∀ o, (∀ j, j < item.words.length →
        o ≠ (s.rings.get k).base + ((s.rings.get k).snapshot.position + j) % (s.rings.get k).length) →
      (s.memory.writeAll ((roundOffsets (s.rings.get k) item.words.length).zip item.words)).read o
        = s.memory.read o := fun o ho => by
    refine read_writeAll_zip_other hwf hin fun hmem => ?_
    obtain ⟨j, hj, heq⟩ := mem_roundOffsets.mp hmem
    exact ho j hj heq
  have hwrites : ∀ c ∈ (roundOffsets (s.rings.get k) item.words.length).zip item.words,
      c.1 < Config.captureWords := fun c hc => hin _ (List.of_mem_zip hc).1
  rcases hst with hst | ⟨hst, hpend⟩
  · have htakes := takeWords_run (r := { s.rings.get k with inbox := items }) he hm k s.timebase hpos
      hwritten hst
    refine ⟨_, _, exec_ringTakeItem hi hmark htakes hwrites, hread, hother,
      fun _ => ⟨rfl, List.append_nil _⟩, fun p hst' => ?_, rfl⟩
    rw [hst] at hst'; cases hst'
  · obtain ⟨p, hp⟩ := Option.ne_none_iff_exists'.mp hpend
    have htakes := takeWords_countdown (r := { s.rings.get k with inbox := items }) he hm k s.timebase
      hpos hwritten hst hp
    refine ⟨_, _, exec_ringTakeItem hi hmark htakes hwrites, hread, hother, fun hmore => ?_,
      fun p' _ hp' hle => ?_, rfl⟩
    · have hmore : ¬ (s.rings.get k).snapshot.remaining ≤ item.words.length := by
        rcases hmore with hrun | hmore
        · rw [hst] at hrun; cases hrun
        · omega
      simp only [if_neg hmore, List.append_nil, and_self]
    · obtain rfl := Option.some.inj (hp.symm.trans hp')
      obtain ⟨hfrozen, hrequests⟩ := written.goFrozen_spec k p s.timebase
      simp only [if_pos hle, hrequests]
      exact ⟨hfrozen, trivial⟩

end Sys2Proof

/-! ## What one command does to the queues, the event unit and the requests (O11, O12)

What a command leaves of the event unit, the egress scheduler and the management unit is said once, as some
moves of these blocks; each invariant is then shown of the moves. What is in flight to the blocks, and their
counts of losses and drops, no invariant here looks at. -/

namespace Sys2Proof

open Sys2Proof.Machine

/-! ### The part of the state that the moves change -/

def Machine.Egress.queues (g : Egress) : Egress :=
  { g with fwDrops := 0, downDiscards := 0, reducedDropped := 0, obDrops := 0, candidates := [],
           others := [], records := [], fLosses := 0 }

def Machine.EventUnit.queues (e : EventUnit) : EventUnit :=
  { e with pendingLoss := 0, lifetimeLoss := 0, requests := [] }

def Machine.Management.queues (m : Management) : Management :=
  { m with shares := { m.shares with readings := Shares.reset.readings } }

/-- What of a state the invariants of the queues look at. -/
structure Queues where
  phase : Phase
  egress : Egress
  events : EventUnit
  management : Management

def Machine.State.queues (s : State) : Queues :=
  ⟨s.phase, s.egress.queues, s.events.queues, s.management.queues⟩

/-! ### The moves of each block -/

/-- What one event makes of the event unit (chapter 6). -/
inductive EventsMove (s : State) : EventUnit → Prop
  | queued (r : EventRecord) (room : s.events.queue.length < Config.eventCapacity)
      (serial : r.serial = s.events.serial) (unsent : r.sent = .unsent) :
      EventsMove s (s.events.append r)
  | timedOut (due : s.events.timer.due = true) :
      EventsMove s (s.events.timeout s.management.global.retryLimit)
  | suspended (xs : List LinkChange) (change : s.events.linkChanges = .leftUp :: xs) :
      EventsMove s { s.events with linkChanges := xs }.suspend
  | resumed (xs : List LinkChange) (change : s.events.linkChanges = .cameUp :: xs) :
      EventsMove s { s.events with linkChanges := xs }.resume
  | sent (ready : s.events.ready s.management.global.eventWindow = true) :
      EventsMove s (s.events.afterGrant s.management.global)
  | acked (n timeout : Nat) :
      EventsMove s { s.events with
        queue := s.events.queue.drop n
        retry := 0
        timer := s.events.timerAfterAck (s.events.queue.drop n) timeout }
  | resynced : EventsMove s s.events.resynced
  | restarted (cUp : Bool) : EventsMove s (s.events.restarted cUp)

/-- What one event makes of the egress scheduler and DT (chapter 8, R95, R101, R102). -/
inductive EgressMove (s : State) : Egress → Prop
  | fwPlaced (frame : List Byte) (free : s.egress.held = false)
      (room : s.egress.fw.length < Config.fwCapacity) :
      EgressMove s { s.egress with fw := s.egress.fw ++ [frame] }
  | fwGranted (frame : List Byte) (rest : List (List Byte)) (front : s.egress.fw = frame :: rest)
      (due : s.egress.dt ≠ [] → s.egress.streak < s.management.global.dtStreak) :
      EgressMove s { s.egress with
        fw := rest, streak := if s.egress.dt = [] then 0 else s.egress.streak + 1 }
  | obChanged (q : List (List Byte))
      (room : s.egress.ob.length ≤ Config.obCapacity → q.length ≤ Config.obCapacity) :
      EgressMove s { s.egress with ob := q }
  | opened (r : OutputRecord) (free : s.egress.held = false) :
      EgressMove s { s.egress with
        openFrame := [r], holdTimer := startTimer s.management.global.reducedHold }
  | joined (r : OutputRecord) (isOpen : s.egress.openFrame ≠ [])
      (room : s.egress.openFrame.length + 1 < Config.reducedFrameRecords) :
      EgressMove s { s.egress with openFrame := s.egress.openFrame ++ [r] }
  | closed : EgressMove s { s.egress with openFrame := [], holdTimer := .stopped }
  | dtPlaced (frame : DtFrame) (free : s.egress.held = false ∨ s.egress.openFrame ≠ [])
      (room : s.egress.dt.length < Config.dtCapacity) :
      EgressMove s { s.egress with dt := s.egress.dt ++ [frame] }
  | dtGranted (frame : DtFrame) (rest : List DtFrame) (front : s.egress.dt = frame :: rest) :
      EgressMove s { s.egress with dt := rest, streak := 0 }
  | dtFiltered (p : DtFrame → Bool) :
      EgressMove s { s.egress with
        dt := s.egress.dt.filter p
        streak := if s.egress.dt.filter p = [] then 0 else s.egress.streak }
  | mrPlaced (place : Fin 4) (r : Reply) (free : s.egress.held = false) :
      EgressMove s { s.egress with
        mr := s.egress.mr.filter (fun x => decide (x.place ≠ place)) ++ [⟨place, r⟩] }
  | mrShortened (q : List MrReply) (part : q.Sublist s.egress.mr) :
      EgressMove s { s.egress with mr := q }
  | emptied :
      EgressMove s { s.egress with
        fw := [], dt := [], mr := [], openFrame := [], holdTimer := .stopped, streak := 0 }
  | heldEmpty (xs : List LinkChange) (fw : s.egress.fw = []) (dt : s.egress.dt = [])
      (mr : s.egress.mr = []) (openFrame : s.egress.openFrame = []) :
      EgressMove s { s.egress with held := true, cChanges := xs }

/-- What one event makes of the management unit (chapter 7). -/
inductive RequestMove (s : State) : Management → Prop
  | taken (payload : List Byte) (idle : s.management.current = none) :
      RequestMove s { s.management with current := some payload }
  | waits (payload : List Byte) (room : s.management.waiting.length < Config.pendingCapacity) :
      RequestMove s { s.management with waiting := s.management.waiting ++ [payload] }
  | finished (cache : Table (Option CachedReply) 4) :
      RequestMove s { s.management with
        cache := cache
        current := s.management.waiting.head?
        shares := Shares.reset
        waiting := s.management.waiting.tail }
  | shareTaken {q : Request} {code : Nat} (b : Block) (executes : Executes s q code)
      (good : argumentLengthGood code q.args = true) (part : takesPart code b)
      (left : b ∉ s.management.shares.taken) :
      RequestMove s { s.management with
        shares := { s.management.shares with taken := s.management.shares.taken ++ [b] } }
  | globalWritten {g : Global} (mask : Nat) (v : List Byte)
      (write : s.management.global.write mask v = some g) :
      RequestMove s { s.management with global := g }

/-- What one event makes of all of them: nothing, a move of one block, or a change of several at once. -/
inductive QueueMove (s t : State) : Prop
  | same (h : t.queues = s.queues)
  | events {e : EventUnit} (m : EventsMove s e)
      (h : t.queues = ({ s with events := e } : State).queues)
  | egress {g : Egress} (m : EgressMove s g)
      (h : t.queues = ({ s with egress := g } : State).queues)
  | requests {m' : Management} (m : RequestMove s m')
      (h : t.queues = ({ s with management := m' } : State).queues)
  | initialised (phase : s.phase = .initialising)
      (h : t.queues = ({ s with phase := .operating, events := s.events.started 0 } : State).queues)
  | linkChanged (x : LinkChange)
      (h : t.queues = ({ s with
        egress := { s.egress with cChanges := s.egress.cChanges ++ [x] }
        events := { s.events with linkChanges := s.events.linkChanges ++ [x] } } : State).queues)
  | released (xs : List LinkChange) (taken : s.events.linkChanges = [])
      (h : t.queues =
        ({ s with egress := { s.egress with cChanges := xs, held := false } } : State).queues)
  | ticked (h : t.queues = s.tick.queues)

/-- What some events in a row make of them. -/
abbrev QueueMoves (s t : State) : Prop := Relation.ReflTransGen QueueMove s t

/-! ### Moves in a row -/

section
variable {s t u : State}

theorem QueueMoves.refl (s : State) : QueueMoves s s := Relation.ReflTransGen.refl

theorem QueueMoves.of_same (h : t.queues = s.queues) : QueueMoves s t := .single (.same h)

theorem QueueMoves.trans (hs : QueueMoves s t) (ht : QueueMoves t u) : QueueMoves s u :=
  Relation.ReflTransGen.trans hs ht

theorem QueueMoves.same (hs : QueueMoves s t) (h : u.queues = t.queues) : QueueMoves s u :=
  hs.tail (.same h)

theorem QueueMoves.of_start (ht : QueueMoves t u) (h : t.queues = s.queues) : QueueMoves s u :=
  (QueueMoves.of_same h).trans ht

theorem QueueMoves.events {e : EventUnit} (hs : QueueMoves s t) (m : EventsMove t e) :
    QueueMoves s { t with events := e } :=
  hs.tail (.events m rfl)

theorem QueueMoves.egress {g : Egress} (hs : QueueMoves s t) (m : EgressMove t g) :
    QueueMoves s { t with egress := g } :=
  hs.tail (.egress m rfl)

theorem QueueMoves.requests {m' : Management} (hs : QueueMoves s t) (m : RequestMove t m') :
    QueueMoves s { t with management := m' } :=
  hs.tail (.requests m rfl)

/-- A command that leaves the queues as they are. -/
theorem QueueMoves.of_same_next (h : Host.Outcome.next (φ := Fault) (ρ := Refusal) u = .next t)
    (hu : u.queues = s.queues) : QueueMoves s t := by
  cases h; exact .of_same hu

theorem QueueMoves.of_next (h : Host.Outcome.next (φ := Fault) (ρ := Refusal) u = .next t)
    (hu : QueueMoves s u) : QueueMoves s t := by
  cases h; exact hu

end

end Sys2Proof

/-! ### The queues under the operations that the blocks share -/

namespace Sys2Proof.Machine

@[simp] theorem queues_setPort (s : State) (p : PortId) (x : Port) :
    (s.setPort p x).queues = s.queues := by
  cases p <;> rfl

@[simp] theorem queues_chargeMalformed (s : State) (p : PortId) :
    (s.chargeMalformed p).queues = s.queues :=
  queues_setPort _ _ _

@[simp] theorem queues_tellOccupancy (s : State) (p : PortId) (x : OccupancyChange) :
    (s.tellOccupancy p x).queues = s.queues :=
  queues_setPort _ _ _

@[simp] theorem queues_setInbox (s : State) (items : List ClassifierItem) :
    (s.setInbox items).queues = s.queues := rfl

theorem OnlyOffered.queues {s t : State} (h : OnlyOffered s t) : t.queues = s.queues := by
  rw [h.rest]; rfl

@[simp] theorem queues_passBy (s : State) (p : Source → Bool) : (s.passBy p).queues = s.queues := rfl

@[simp] theorem queues_placeMarks (s : State) (p : Channel → Bool) :
    (s.placeMarks p).queues = s.queues :=
  (State.placeMarks_onlyOffered s p).queues

@[simp] theorem queues_unseeNodes (s : State) : s.unseeNodes.queues = s.queues := rfl

@[simp] theorem queues_takeSampleFrame (s : State) (bytes : List Byte) :
    (s.takeSampleFrame bytes).queues = s.queues := by
  have hprocessed : ∀ n q node es, ((((s.passBy Source.isChannel).trackNode n q).takeEntries node es).1).queues
      = s.queues := fun n q node es => by
    rw [(State.takeEntries_onlyOffered _ _ _).queues, (trackNode_onlyOffered _ _ _).queues]
    exact (State.passBy_onlyOffered s _).queues
  simp only [State.takeSampleFrame, State.handCandidate]
  split
  · split_ifs
    · simp
    · rfl
    · exact hprocessed _ _ _ _
    · exact (hprocessed _ _ _ _ :)
  · simp

@[simp] theorem queues_slotTakesSample (s : State) (k : Fin 16) (x : Slot) (v : Int) (i : Nat) :
    (s.slotTakesSample k x v i).queues = s.queues := by
  simp only [State.slotTakesSample, State.deliverOutput]
  split
  · rfl
  · split <;> rfl

@[simp] theorem queues_slotTakesMark (s : State) (k : Fin 16) (x : Slot) :
    (s.slotTakesMark k x).queues = s.queues := by
  simp only [State.slotTakesMark]
  split
  · rfl
  · split <;> rfl

@[simp] theorem queues_sendFreeze (s : State) (k : Fin 32) (g : Option (Fin 8)) :
    (s.sendFreeze k g).queues = s.queues := by
  cases g <;> rfl

@[simp] theorem queues_sendStart (s : State) (j : Option (Fin 16)) :
    (s.sendStart j).queues = s.queues := by
  cases j <;> rfl

@[simp] theorem queues_ruleTakesValue (s : State) (k : Fin 32) (r : Rule) (v : Int) (i : Nat) :
    (s.ruleTakesValue k r v i).queues = s.queues := by
  simp only [State.ruleTakesValue]
  split
  · split
    · rfl
    · simp only [State.ruleAsserts, queues_sendStart, queues_sendFreeze]
      split <;> rfl
    · simp only [State.ruleReleases]
      split <;> rfl
  · rfl

@[simp] theorem queues_ringTakesFreeze (s : State) (k : Fin 8) (r : Ring) (t : Trigger) :
    (s.ringTakesFreeze k r t).queues = s.queues := by
  simp only [State.ringTakesFreeze]
  split <;> rfl

@[simp] theorem queues_engineGranted (s : State) (f : ReadoutFrame) :
    (s.engineGranted f).queues = s.queues := by
  simp only [State.engineGranted]
  split
  · split <;> rfl
  · split <;> rfl
  · rfl

@[simp] theorem queues_readoutLinkLost (s : State) : s.readoutLinkLost.queues = s.queues := by
  simp only [State.readoutLinkLost]
  split <;> rfl

theorem queues_emptyEgress (s : State) : s.emptyEgress.queues = { s.queues with
    egress := { s.queues.egress with
      fw := [], dt := [], mr := [], openFrame := [], holdTimer := .stopped, streak := 0,
      held := true } } := rfl

@[simp] theorem queues_statusShare (b : Block) (s : State) : (s.statusShare b).queues = s.queues := by
  cases b <;> rfl

@[simp] theorem queues_clearShare (b : Block) (s : State) : (s.clearShare b).queues = s.queues := by
  cases b <;> rfl

/-! #### Table access and ring requests -/

theorem queues_atIndex {n : Nat} {s u : State} {op : Fin n → Status × State} {i : Option (Fin n)}
    {status : Status} {results : List Byte}
    (h : some (bare (atIndex i s op)) = some (status, results, u))
    (ho : ∀ k, (op k).2.queues = s.queues) : u.queues = s.queues := by
  cases h
  exact atIndex_keeps (P := fun v => v.queues = s.queues) rfl ho

theorem queues_enableEntry (s : State) (x : TableId) (i : Nat) :
    (s.enableEntry x i).2.queues = s.queues := by
  cases x with
  | channel =>
    refine atIndex_keeps (P := fun v => v.queues = s.queues) rfl fun c => ?_
    simp only [State.enableChannel]; split_ifs <;> rfl
  | slot =>
    refine atIndex_keeps (P := fun v => v.queues = s.queues) rfl fun c => ?_
    simp only [State.enableSlot]; split_ifs <;> rfl
  | rule =>
    refine atIndex_keeps (P := fun v => v.queues = s.queues) rfl fun c => ?_
    simp only [State.enableRule]; split_ifs <;> rfl
  | ring =>
    refine atIndex_keeps (P := fun v => v.queues = s.queues) rfl fun c => ?_
    simp only [State.enableRing]; split_ifs <;> rfl
  | node | global => rfl

theorem queues_disableEntry (s : State) (x : TableId) (i : Nat) :
    (s.disableEntry x i).2.queues = s.queues := by
  cases x with
  | channel =>
    refine atIndex_keeps (P := fun v => v.queues = s.queues) rfl fun c => ?_
    simp only [State.disableChannel]; split_ifs <;> rfl
  | slot =>
    refine atIndex_keeps (P := fun v => v.queues = s.queues) rfl fun c => ?_
    simp only [State.disableSlot]; split_ifs <;> rfl
  | rule =>
    refine atIndex_keeps (P := fun v => v.queues = s.queues) rfl fun c => ?_
    simp only [State.disableRule]; split_ifs <;> rfl
  | ring =>
    refine atIndex_keeps (P := fun v => v.queues = s.queues) rfl fun c => ?_
    simp only [State.disableRing]; split_ifs <;> rfl
  | node | global => rfl

theorem queues_releaseHalf (s : State) (k : Fin 8) (h : HalfId) :
    (s.releaseHalf k h).2.queues = s.queues := by
  simp only [State.releaseHalf]
  split_ifs
  · rfl
  · rfl
  · split <;> rfl

theorem queues_flushRing (s : State) (k : Fin 8) : (s.flushRing k).2.queues = s.queues := by
  simp only [State.flushRing]
  split_ifs
  · rfl
  · rfl
  · split
    · split <;> rfl
    · rfl

theorem queues_freezeRing (s : State) (k : Fin 8) : (s.freezeRing k).2.queues = s.queues := by
  simp only [State.freezeRing]
  split_ifs
  · rfl
  · rfl
  · rfl
  · exact queues_ringTakesFreeze _ _ _ _

theorem queues_rearmRing (s : State) (k : Fin 8) : (s.rearmRing k).2.queues = s.queues := by
  simp only [State.rearmRing]
  split_ifs
  · rfl
  · rfl
  · split <;> rfl

theorem queues_startSlot (s : State) (k : Fin 16) : (s.startSlot k).2.queues = s.queues := by
  simp only [State.startSlot]
  split <;> rfl

end Sys2Proof.Machine

/-! ### The moves that a command makes -/

namespace Sys2Proof

open Sys2Proof.Machine

section
variable {s t u : State}

/-! #### The ports (R129, R161, R162, R167, R168) -/

theorem QueueMoves.enterUp (s : State) (p : PortId) : QueueMoves s (s.enterUp p) := by
  cases p with
  | f => exact .of_same rfl
  | c => exact .single (.linkChanged .cameUp rfl)

theorem QueueMoves.leaveUp (s : State) (p : PortId) : QueueMoves s (s.leaveUp p) := by
  cases p with
  | f => exact .of_same rfl
  | c => exact .single (.linkChanged .leftUp rfl)

theorem QueueMoves.receiveFlow (s : State) (p : PortId) (paused : Bool) :
    QueueMoves s (s.receiveFlow p paused) := by
  simp only [State.receiveFlow]
  split
  · exact .of_same (queues_setPort _ _ _)
  · split
    · exact .enterUp s p
    · exact .refl s
  · exact .refl s

theorem QueueMoves.placeOb (s : State) (bytes : List Byte) : QueueMoves s (s.placeOb bytes) := by
  rcases s.placeOb_cases bytes with ⟨hroom, h⟩ | ⟨_, h⟩ <;> rw [h]
  · have hlen : (s.egress.ob ++ [bytes]).length ≤ Config.obCapacity := by
      rw [List.length_append]; exact hroom
    exact ((QueueMoves.refl s).egress (.obChanged _ fun _ => hlen)).same rfl
  · exact .of_same rfl

theorem QueueMoves.arriveRequest (s : State) (payload : List Byte) :
    QueueMoves s (s.arriveRequest payload) := by
  rcases s.arriveRequest_cases payload with ⟨hidle, h⟩ | ⟨_, hroom, h⟩ | ⟨_, _, h⟩ <;> rw [h]
  · exact (QueueMoves.refl s).requests (.taken payload hidle)
  · exact (QueueMoves.refl s).requests (.waits payload hroom)
  · exact .of_same rfl

theorem QueueMoves.handOn (s : State) (p : PortId) (bytes : List Byte) :
    QueueMoves s (s.handOn p bytes) := by
  cases p with
  | f => simp only [State.handOn]; split <;> exact .of_same rfl
  | c =>
    simp only [State.handOn]
    split_ifs
    · exact .arriveRequest s _
    · exact (QueueMoves.arriveRequest s _).trans (.placeOb _ _)
    · exact .placeOb s _

theorem QueueMoves.takeFrame (s : State) (p : PortId) (bytes : List Byte) :
    QueueMoves s (s.takeFrame p bytes) := by
  simp only [State.takeFrame]
  split_ifs
  · exact .of_same (queues_setPort _ _ _)
  · exact .of_same (queues_chargeMalformed _ _)
  · exact (QueueMoves.of_same (queues_setPort _ _ _)).trans (.handOn _ p bytes)

/-! #### The scheduler (R150 to R154, R160, R163) -/

theorem QueueMoves.offerFw (s : State) (bytes : List Byte) : QueueMoves s (s.offerFw bytes) := by
  rcases s.offerFw_cases bytes with ⟨_, h⟩ | ⟨hfree, hroom, h⟩ | ⟨_, _, h⟩ <;> rw [h]
  · exact .of_same rfl
  · exact ((QueueMoves.refl s).egress (.fwPlaced bytes hfree hroom)).same rfl
  · exact .of_same rfl

/-- A frame that closes leaves the assembler empty, and enters DT where DT has room for it. -/
theorem QueueMoves.closeReduced (records : List OutputRecord)
    (hfree : s.egress.held = false ∨ s.egress.openFrame ≠ []) :
    QueueMoves s (s.closeReduced records) := by
  rcases s.closeReduced_cases records with ⟨henters, h⟩ | ⟨_, h⟩ <;> rw [h]
  · have hroom : s.egress.dt.length < Config.dtCapacity := by
      simp only [State.reducedEnters, Bool.and_eq_true, decide_eq_true_eq] at henters
      exact henters.1
    exact ((QueueMoves.refl s).egress (.dtPlaced (.reduced records) hfree hroom)).egress .closed
  · exact ((QueueMoves.refl s).egress .closed).same rfl

theorem QueueMoves.assemble (s : State) (r : OutputRecord) : QueueMoves s (s.assemble r) := by
  simp only [State.assemble]
  split_ifs with hheld hfull hopen
  · exact .of_same rfl
  · exact .closeReduced _ (.inl (by simpa using hheld))
  · exact (QueueMoves.refl s).egress (.opened r (by simpa using hheld))
  · exact (QueueMoves.refl s).egress (.joined r hopen (Nat.lt_of_not_le hfull))

theorem QueueMoves.emptyOb (s : State) : QueueMoves s s.emptyOb :=
  ((QueueMoves.refl s).egress (.obChanged [] fun _ => Nat.zero_le _)).same rfl

theorem QueueMoves.restartEgress (s : State) : QueueMoves s s.restartEgress :=
  (((QueueMoves.refl s).egress .emptied).egress (.obChanged [] fun _ => Nat.zero_le _)).same rfl

theorem QueueMoves.placeReply (s : State) (place : Fin 4) (r : Reply) :
    QueueMoves s (s.placeReply place r) := by
  simp only [State.placeReply]
  split
  · exact .refl s
  · next h => exact (QueueMoves.refl s).egress (.mrPlaced place r (by simpa using h))

/-! #### The readout engine (R95, R101, R102) -/

theorem QueueMoves.placeTerminator (s : State) : QueueMoves s s.placeTerminator := by
  rcases s.placeTerminator_cases with h | ⟨x, _, _, hfree, hroom, h⟩
  · rw [h]
  · rw [h]
    exact ((QueueMoves.refl s).egress (.dtPlaced (.readout x.frame) (.inl hfree) hroom)).same rfl

theorem QueueMoves.produceOne (h : s.produceOne = some t) : QueueMoves s t := by
  rcases State.produceOne_cases h with rfl | ⟨x, _, hfree, hroom, _, _, rfl⟩
  · exact .refl t
  · exact ((QueueMoves.refl s).egress (.dtPlaced _ (.inl hfree) hroom)).same rfl

theorem QueueMoves.examineEngine (h : s.examineEngine = some t) : QueueMoves s t :=
  State.examineEngine_keeps (P := QueueMoves s) (fun u hu => hu.trans (.placeTerminator u))
    (fun _ _ hu h => hu.trans (.produceOne h)) (.refl s) h

theorem QueueMoves.abortReadout (s : State) (x : ReadoutRecord) : QueueMoves s (s.abortReadout x) := by
  simp only [State.abortReadout]
  refine QueueMoves.trans ?_ (.placeTerminator _)
  exact ((QueueMoves.refl s).egress (.dtFiltered fun f => !f.ofReadout x.id)).same rfl

theorem QueueMoves.readRing {k : Fin 8} {part : RingPart} {status : Status} {results : List Byte}
    (h : s.readRing k part = some (status, results, u)) : QueueMoves s u := by
  simp only [State.readRing] at h
  split at h
  · obtain ⟨v, hv, heq⟩ := Option.map_eq_some_iff.mp h
    cases heq
    have haccept : QueueMoves s (s.acceptReadout k part) := .of_same rfl
    exact haccept.trans (.examineEngine hv)
  · cases h; exact .refl s

/-! #### The grants (R116, R158, R159) -/

theorem QueueMoves.grantDt (h : s.grantDt = some t) : QueueMoves s t := by
  simp only [State.grantDt] at h
  split at h
  · next f fs hdt =>
    have hgranted := (QueueMoves.refl s).egress (.dtGranted f fs hdt)
    split at h
    · refine .trans (hgranted.same ?_) (.examineEngine h)
      exact (queues_engineGranted _ _).trans rfl
    · refine .trans (hgranted.same ?_) (.examineEngine h)
      rfl
  · cases h; exact .refl s

/-- FW is granted past DT only while the streak is below S (R158). -/
theorem QueueMoves.grantFw
    (due : s.egress.dt ≠ [] → s.egress.streak < s.management.global.dtStreak) :
    QueueMoves s s.grantFw := by
  simp only [State.grantFw]
  split
  · next f fs hfw => exact ((QueueMoves.refl s).egress (.fwGranted f fs hfw due)).same rfl
  · exact .refl s

theorem QueueMoves.execArbiterGrant (h : execArbiterGrant s = .next t) : QueueMoves s t := by
  simp only [Machine.execArbiterGrant] at h
  split at h
  · split at h
    · next c hc =>
      have hgrant := captureOutcome_eq_next.mp h
      simp only [State.arbiterChoice] at hc
      split_ifs at hc with hmr hev hdue hfw hdt <;> cases hc <;> simp only [State.grant] at hgrant
      · cases hgrant
        simp only [State.grantMr]
        split
        · next x xs hx =>
          have hpart : xs.Sublist s.egress.mr := hx ▸ List.sublist_cons_self x xs
          exact ((QueueMoves.refl s).egress (.mrShortened xs hpart)).same rfl
        · exact .refl s
      · cases hgrant
        exact ((QueueMoves.refl s).events (.sent hev)).same rfl
      · exact .grantDt hgrant
      · cases hgrant
        exact .grantFw fun hne => Nat.lt_of_not_le fun hle => hdue ⟨hle, hne⟩
      · exact .grantDt hgrant
    · exact .of_same_next h rfl
  · exact .of_same_next h rfl

/-! #### The event unit (R107, R111, R114, R118, R120) -/

theorem QueueMoves.settleLoss (now : Nat) :
    QueueMoves s { s with events := s.events.settleLoss now } := by
  rcases s.events.settleLoss_cases now with h | ⟨hroom, _, h⟩
  · rw [h]
  · rw [h]
    exact ((QueueMoves.refl s).events (.queued _ hroom rfl rfl)).same rfl

theorem QueueMoves.enqueue (q : EventRequest) :
    QueueMoves s { s with events := s.events.enqueue q } := by
  rcases s.events.enqueue_cases q with ⟨hroom, h⟩ | ⟨_, h⟩ <;> rw [h]
  · exact (QueueMoves.refl s).events (.queued _ hroom rfl rfl)
  · exact .of_same rfl

theorem QueueMoves.execEventEnqueue {r : Requester} (h : execEventEnqueue r s = .next t) :
    QueueMoves s t := by
  simp only [Machine.execEventEnqueue] at h
  split at h
  · next q rest _ =>
    have htake : QueueMoves s { s with events := { s.events with requests := rest } } := .of_same rfl
    have hsettle := htake.trans (.settleLoss s.timebase)
    exact .of_next h (hsettle.trans (.enqueue q))
  · exact .of_same_next h rfl

/-! #### Requests (R128 to R131, R141, R142, R145) -/

/-- A reply that is only placed: MR takes it, and the next request is taken. -/
theorem QueueMoves.repliedOnly (s : State) (q : Request) (r : Reply) :
    QueueMoves s (repliedOnly s q r) :=
  (QueueMoves.placeReply s (tagPlace q.tag) r).requests (.finished _)

/-- An answer enters the cache, whatever the execution `u` has made of the cache before, and then MR. -/
theorem QueueMoves.answered (cache : Table (Option CachedReply) 4)
    (h : QueueMoves s { u with management := { u.management with cache := cache } })
    (q : Request) (status : Status) (results : List Byte) :
    QueueMoves s (answered u q status results) := by
  refine ((h.trans (.placeReply _ (tagPlace q.tag) (q.reply status results))).requests
    (.finished (u.management.cache.set (tagPlace q.tag)
      (some ⟨q.number, q.reply status results⟩)))).same ?_
  rw [answered_eq, State.placeReply_eq]

theorem QueueMoves.request {code : Nat} {run : List Byte → State → Option Answer}
    (h : s.request code run = .next t)
    (hr : ∀ args status results u, run args s = some (status, results, u) → QueueMoves s u) :
    QueueMoves s t := by
  rcases State.request_next h with rfl | ⟨q, r, _, rfl⟩ | ⟨q, status, results, u, hu, rfl⟩
  · exact .refl t
  · exact .repliedOnly s q r
  · exact .answered u.management.cache (hr _ _ _ _ hu) q status results

theorem QueueMoves.atIndex {n : Nat} {op : Fin n → Status × State} {i : Option (Fin n)}
    {status : Status} {results : List Byte}
    (h : some (bare (atIndex i s op)) = some (status, results, u))
    (ho : ∀ k, (op k).2.queues = s.queues) : QueueMoves s u :=
  .of_same (queues_atIndex h ho)

theorem executes_congr (hc : t.management.current = s.management.current)
    (hm : t.management.cache = s.management.cache) (q : Request) (code : Nat) :
    Executes t q code ↔ Executes s q code := by
  simp only [Executes, State.currentRequest, State.cachedFor, hc, hm]

/-- One block's share of a request: what the block does in it, and the note that it has. -/
theorem QueueMoves.takeShare {q : Request} {code : Nat} {b : Block} {work : Block → State → State}
    (hx : Executes s q code) (hl : argumentLengthGood code q.args = true) (hp : takesPart code b)
    (hb : b ∉ s.management.shares.taken) (hw : QueueMoves s (work b s))
    (hm : (work b s).management.queues = s.management.queues) :
    QueueMoves s (s.takeShare work b) := by
  have hcurrent : (work b s).management.current = s.management.current := (congrArg Management.current hm :)
  have hcache : (work b s).management.cache = s.management.cache := (congrArg Management.cache hm :)
  have htaken : (work b s).management.shares.taken = s.management.shares.taken :=
    (congrArg (fun m => m.shares.taken) hm :)
  exact hw.requests (.shareTaken b ((executes_congr hcurrent hcache q code).mpr hx) hl hp (htaken ▸ hb))

/-- A request that several blocks take part in: one block's share, or what every request can do. -/
theorem QueueMoves.gather {code : Nat} {blocks : List Block} {work : Block → State → State}
    {answer : State → Answer} (h : s.gather code blocks work answer = .next t)
    (hp : ∀ b ∈ blocks, takesPart code b) (hw : ∀ b, QueueMoves s (work b s))
    (hm : ∀ b, (work b s).management.queues = s.management.queues)
    (ha : s.request code (fun _ u => some (answer u)) = .next t → QueueMoves s t) : QueueMoves s t := by
  simp only [State.gather] at h
  split at h
  · next b hexecutes hb =>
    obtain ⟨q, hx, hl⟩ := (s.executes_iff code).mp hexecutes
    obtain ⟨hmem, hleft⟩ := State.chooseShare_mem hb
    exact .of_next h ((QueueMoves.takeShare hx hl (hp b hmem) hleft (hw b) (hm b)).same rfl)
  · exact ha h

theorem takesPart_status {code : Nat} (hc : code = 6 ∨ code = 7) :
    ∀ b ∈ statusOwners, takesPart code b := by
  intro b hb
  rw [takesPart, if_pos hc]
  simpa [statusOwners] using hb

/-- A block's share of RESTART reaches no queue but the scheduler's and the event unit's. -/
theorem QueueMoves.restartShare (s : State) (b : Block) : QueueMoves s (s.restartShare b) := by
  cases b with
  | capture => exact (QueueMoves.restartEgress s).same rfl
  | events => exact ((QueueMoves.refl s).events (.restarted _)).same rfl
  | _ => exact .of_same rfl

theorem queues_management_restartShare (s : State) (b : Block) :
    (s.restartShare b).management.queues = s.management.queues := by
  cases b <;> rfl

theorem QueueMoves.execRestart (h : execRestart s = .next t) : QueueMoves s t := by
  refine .gather h (fun b hb => (takesPart_restart_iff b).mpr hb) (.restartShare s)
    (queues_management_restartShare s) fun h => ?_
  rcases State.request_next h with rfl | ⟨q, r, _, rfl⟩ | ⟨q, status, results, u, hu, rfl⟩
  · exact .refl t
  · exact .repliedOnly s q r
  · cases hu
    refine .answered s.management.cache ?_ q _ _
    exact ((QueueMoves.restartShare s .events).egress (.mrShortened [] (List.nil_sublist _))).same rfl

/-- A write reaches no queue; one of GLOBAL leaves GLOBAL as the write makes it (R134, R138). -/
theorem QueueMoves.writeEntry (s : State) (x : TableId) (i mask : Nat) (v : List Byte) :
    QueueMoves s (s.writeEntry x i mask v).2 := by
  have same : ∀ {u : State}, u.queues = s.queues → QueueMoves s u := .of_same
  cases x with
  | channel | slot | rule | ring =>
    exact atIndex_keeps (.refl s) fun c => writeChecked_keeps (.refl s) fun y _ _ _ => same rfl
  | node => exact .refl s
  | global =>
    simp only [State.writeEntry]
    split
    · exact writeChecked_keeps (.refl s) fun g hg _ _ =>
        (QueueMoves.refl s).requests (.globalWritten mask v hg)
    · exact .refl s

end

/-- Every command but a hard reset makes some of the moves. -/
theorem exec_queueMoves {i : Instr} {s t : State} (hi : ∀ cause straps, i ≠ .hardReset cause straps)
    (h : exec i s = .next t) : QueueMoves s t := by
  cases i with
  | hardReset cause straps => exact absurd rfl (hi cause straps)
  | initialisationComplete =>
    simp only [exec, execInitialisationComplete] at h
    split at h
    · next hphase => exact .of_next h (.single (.initialised hphase rfl))
    · exact .of_same_next h rfl
  | receiveTrain p heard =>
    simp only [exec, execReceiveTrain] at h
    split at h
    · exact .of_same_next h rfl
    · split at h
      · exact .of_next h ((QueueMoves.of_same (queues_setPort _ _ _)).trans (.enterUp _ p))
      · exact .of_same_next h (queues_setPort _ _ _)
    · split at h
      · exact .of_same_next h rfl
      · exact .of_next h (.leaveUp s p)
  | undecodableSymbol p =>
    simp only [exec, execUndecodableSymbol] at h
    split at h <;> exact .of_same_next h (by simp)
  | receiveHold p => exact .of_next h (.receiveFlow s p true)
  | receiveGo p => exact .of_next h (.receiveFlow s p false)
  | lossOfLock p =>
    simp only [exec, execLossOfLock] at h
    split at h
    · exact .of_next h (.leaveUp s p)
    · exact .of_same_next h (queues_setPort _ _ _)
    · exact .of_same_next h rfl
  | frameReceived p bytes =>
    simp only [exec, execFrameReceived] at h
    split at h
    · exact .of_next h (.takeFrame s p bytes)
    · exact .of_same_next h rfl
  | holdSentChange p =>
    simp only [exec, execHoldSentChange] at h
    split at h <;> exact .of_same_next h (by simp)
  | flowSymbolRepeat p =>
    simp only [exec, execFlowSymbolRepeat] at h
    split at h <;> exact .of_same_next h (by simp)
  | frameSendComplete p =>
    simp only [exec, execFrameSendComplete] at h
    split at h <;> exact .of_same_next h (by simp)
  | sampleFrameTaken =>
    simp only [exec, execSampleFrameTaken] at h
    split at h <;> exact .of_same_next h (by simp)
  | fPortLeavingUpClassifier =>
    simp only [exec, execFPortLeavingUpClassifier] at h
    split at h <;> exact .of_same_next h (by simp)
  | fwPlace way =>
    cases way <;> simp only [exec, execFwPlace] at h
    · split at h
      · exact .of_next h (.of_start (.offerFw _ _) rfl)
      · exact .of_same_next h rfl
    · split at h
      · split at h
        · exact .of_next h (.of_start (.offerFw _ _) rfl)
        · exact .of_same_next h rfl
      · exact .of_same_next h rfl
  | slotTakeSample k =>
    simp only [exec, execSlotTakeSample] at h
    split at h <;> exact .of_same_next h (by simp)
  | slotTakeGapMark k =>
    simp only [exec, execSlotTakeGapMark] at h
    split at h <;> exact .of_same_next h (by simp)
  | slotStart k =>
    simp only [exec, execSlotStart] at h
    split at h <;> exact .of_same_next h rfl
  | ruleTakeValue k =>
    simp only [exec, execRuleTakeValue] at h
    split at h
    · exact .of_same_next h rfl
    · split at h <;> exact .of_same_next h (by simp)
  | ruleTakeGapMark k =>
    simp only [exec, execRuleTakeGapMark] at h
    split at h <;> exact .of_same_next h rfl
  | ringTakeItem k =>
    simp only [exec, execRingTakeItem] at h
    split at h
    · exact .of_same_next h rfl
    · exact .of_same_next h rfl
    · obtain ⟨_, rfl⟩ := State.ringTakesWords_eq_some (captureOutcome_eq_next.mp h)
      exact .of_same rfl
  | ringTakeGapMark k =>
    simp only [exec, execRingTakeGapMark] at h
    split at h <;> exact .of_same_next h rfl
  | ringFreeze k rule =>
    simp only [exec, execRingFreeze] at h
    split at h <;> exact .of_same_next h (by simp)
  | assemblerTakeRecord k =>
    simp only [exec, execAssemblerTakeRecord] at h
    split at h
    · exact .of_next h (.of_start (.assemble _ _) rfl)
    · exact .of_same_next h rfl
  | reducedHoldExpiry =>
    simp only [exec, execReducedHoldExpiry] at h
    split at h
    · next hdue => exact .of_next h (.closeReduced _ (.inr hdue.2))
    · exact .of_same_next h rfl
  | eventEnqueue r => exact .execEventEnqueue h
  | retransmitTimeout =>
    simp only [exec, execRetransmitTimeout] at h
    split at h
    · next hdue => exact .of_next h ((QueueMoves.refl s).events (.timedOut hdue))
    · exact .of_same_next h rfl
  | deliverySuspend =>
    simp only [exec, execDeliverySuspend] at h
    split at h
    · next xs hx => exact .of_next h ((QueueMoves.refl s).events (.suspended xs hx))
    · exact .of_same_next h rfl
  | deliveryResume =>
    simp only [exec, execDeliveryResume] at h
    split at h
    · next xs hx => exact .of_next h ((QueueMoves.refl s).events (.resumed xs hx))
    · exact .of_same_next h rfl
  | arbiterGrant => exact .execArbiterGrant h
  | readoutFrameProduce => exact .produceOne (captureOutcome_eq_next.mp h)
  | terminatingFramePlace => exact .of_next h (.placeTerminator s)
  | obSend =>
    simp only [exec, execObSend] at h
    split at h
    · split at h
      · next f fs hob =>
        have hlen : s.egress.ob.length ≤ Config.obCapacity → fs.length ≤ Config.obCapacity := by
          rw [hob, List.length_cons]; exact Nat.le_of_succ_le
        exact .of_next h (((QueueMoves.refl s).egress (.obChanged fs hlen)).same rfl)
      · exact .of_same_next h rfl
    · exact .of_same_next h rfl
  | cPortLeavingUpEgress =>
    simp only [exec, execCPortLeavingUpEgress] at h
    split at h
    · next xs _ =>
      have hlost := queues_readoutLinkLost { s with egress := { s.egress with cChanges := xs } }
      refine .of_next h ((((QueueMoves.refl s).egress .emptied).egress
        (.heldEmpty xs rfl rfl rfl rfl)).same ?_)
      rw [queues_emptyEgress, hlost]
      rfl
    · exact .of_same_next h rfl
  | cPortComingUpEgress =>
    simp only [exec, execCPortComingUpEgress] at h
    split at h
    · next xs _ =>
      split at h
      · next hlead =>
        have hempty : s.events.linkChanges = [] := ((State.leads_iff s).mp hlead).1
        refine QueueMoves.trans (.single (.released xs hempty ?_))
          (.examineEngine (captureOutcome_eq_next.mp h))
        rfl
      · exact .of_same_next h rfl
    · exact .of_same_next h rfl
  | fPortLeavingUpEgress =>
    simp only [exec, execFPortLeavingUpEgress] at h
    split at h
    · exact .of_same_next h rfl
    · exact .of_next h (.of_start (.emptyOb _) rfl)
  | ident =>
    simp only [exec, execIdent] at h
    exact .request h fun _ _ _ _ hu => by cases hu; exact .refl s
  | readEntry =>
    simp only [exec, execReadEntry] at h
    refine .request h fun args _ _ u hu => ?_
    split at hu <;> cases hu <;> exact .refl s
  | writeEntry =>
    simp only [exec, execWriteEntry] at h
    refine .request h fun args _ _ u hu => ?_
    split at hu <;> cases hu
    · exact .writeEntry s _ _ _ _
    · exact .refl s
  | enable =>
    simp only [exec, execEnable] at h
    refine .request h fun args _ _ u hu => ?_
    split at hu <;> cases hu
    · exact .of_same (queues_enableEntry s _ _)
    · exact .refl s
  | disable =>
    simp only [exec, execDisable] at h
    refine .request h fun args _ _ u hu => ?_
    split at hu <;> cases hu
    · exact .of_same (queues_disableEntry s _ _)
    · exact .refl s
  | readStatus =>
    simp only [exec, execReadStatus] at h
    exact .gather h (takesPart_status (.inl rfl)) (fun b => .of_same (queues_statusShare b s))
      (fun b => congrArg Queues.management (queues_statusShare b s))
      fun h => .request h fun _ _ _ _ hu => by cases hu; exact .refl s
  | clearCounters =>
    simp only [exec, execClearCounters] at h
    exact .gather h (takesPart_status (.inr rfl)) (fun b => .of_same (queues_clearShare b s))
      (fun b => congrArg Queues.management (queues_clearShare b s))
      fun h => .request h fun _ _ _ _ hu => by cases hu; exact .refl s
  | setTime =>
    simp only [exec, execSetTime] at h
    exact .request h fun _ _ _ _ hu => by cases hu; exact .of_same rfl
  | readRing =>
    simp only [exec, execReadRing] at h
    refine .request h fun args _ _ u hu => ?_
    split at hu
    · exact .readRing hu
    · cases hu; exact .refl s
  | abortRead =>
    simp only [exec, execAbortRead] at h
    refine .request h fun args _ _ u hu => ?_
    split at hu <;> cases hu
    · exact .abortReadout s _
    · exact .refl s
  | releaseHalf =>
    simp only [exec, execReleaseHalf] at h
    refine .request h fun args _ _ u hu => ?_
    split at hu <;> cases hu
    · exact .of_same (queues_releaseHalf s _ _)
    · exact .refl s
  | flushRing =>
    simp only [exec, execFlushRing] at h
    exact .request h fun _ _ _ _ hu => .atIndex hu (queues_flushRing s)
  | freezeRing =>
    simp only [exec, execFreezeRing] at h
    exact .request h fun _ _ _ _ hu => .atIndex hu (queues_freezeRing s)
  | rearmRing =>
    simp only [exec, execRearmRing] at h
    exact .request h fun _ _ _ _ hu => .atIndex hu (queues_rearmRing s)
  | startSlot =>
    simp only [exec, execStartSlot] at h
    exact .request h fun _ _ _ _ hu => .atIndex hu (queues_startSlot s)
  | eventAck =>
    simp only [exec, execEventAck] at h
    refine .request h fun args _ _ u hu => ?_
    split at hu <;> cases hu
    · exact ((QueueMoves.refl s).events (.acked _ _)).trans (.settleLoss s.timebase)
    · exact .refl s
  | eventResync =>
    simp only [exec, execEventResync] at h
    refine .request h fun args _ _ u hu => ?_
    split at hu <;> cases hu
    · exact .refl s
    · exact (QueueMoves.refl s).events .resynced
  | restart => exact .execRestart h
  | unknownCode =>
    simp only [exec, execUnknownCode] at h
    split at h
    · split at h
      · exact .of_same_next h rfl
      · rcases State.serve_cases (captureOutcome_eq_next.mp h) with ⟨r, _, rfl⟩ | ⟨_, _, u, hu, rfl⟩
        · exact .repliedOnly s _ r
        · cases hu; exact .answered s.management.cache (.refl s) _ _ _
    · exact .of_same_next h rfl
  | requestTooShort =>
    simp only [exec, execRequestTooShort] at h
    split at h
    · split at h
      · exact .of_next h (((QueueMoves.refl s).requests (.finished _)).same rfl)
      · exact .of_same_next h rfl
    · exact .of_same_next h rfl

end Sys2Proof

/-! ## The event queue, the retransmit timer and initialisation (O11) -/

namespace Sys2Proof

open Sys2Proof.Machine

/-! ### Serials in a row (R108, R109) -/

/-- Only the serials of the records matter. -/
theorem serialsRun_congr {p q : List EventRecord} (h : p.map (·.serial) = q.map (·.serial))
    (first next : Nat) : serialsRun p first next ↔ serialsRun q first next := by
  induction p generalizing q first with
  | nil =>
    obtain rfl := List.map_eq_nil_iff.mp h.symm
    exact Iff.rfl
  | cons x p ih =>
    obtain ⟨y, q, rfl, hxy, hpq⟩ := List.map_eq_cons_iff.mp h.symm
    simp only [serialsRun, hxy, ih hpq.symm]

theorem serialsRun_append {q : List EventRecord} {r : EventRecord} {first next : Nat}
    (h : serialsRun q first next) (hr : r.serial = next) :
    serialsRun (q ++ [r]) first (wrap16 (next + 1)) := by
  induction q generalizing first with
  | nil => exact ⟨hr.trans h.symm, by rw [h]; rfl⟩
  | cons x q ih => exact ⟨h.1, ih h.2⟩

theorem serialsRun_drop {q : List EventRecord} {first next : Nat} (hf : first < Config.serialModulus)
    (h : serialsRun q first next) (n : Nat) :
    ∃ first', first' < Config.serialModulus ∧ serialsRun (q.drop n) first' next := by
  induction q generalizing first n with
  | nil => exact ⟨first, hf, by rw [List.drop_nil]; exact h⟩
  | cons x q ih =>
    cases n with
    | zero => exact ⟨first, hf, h⟩
    | succ n => exact ih (wrap16_lt _) h.2 n

@[simp] theorem returnToUnsent_serials (q : List EventRecord) :
    (returnToUnsent q).map (·.serial) = q.map (·.serial) := by
  simp [returnToUnsent]

@[simp] theorem markSent_serials (q : List EventRecord) (n : Nat) :
    (markSent q n).map (·.serial) = q.map (·.serial) := by
  induction q generalizing n with
  | nil => rfl
  | cons r q ih =>
    cases n with
    | zero => rfl
    | succ n => simp only [markSent]; split <;> simp [ih]

/-! ### SENT before UNSENT (R108) -/

theorem sentFirst_iff (q : List EventRecord) :
    sentFirst q ↔ q.Pairwise fun r x => r.sent = .unsent → x.sent = .unsent := by
  induction q with
  | nil => simp [sentFirst]
  | cons r q ih =>
    rw [sentFirst, List.pairwise_cons, ih]
    exact and_congr_left fun _ => ⟨fun h x hx hr => h hr x hx, fun h hr x hx => h x hx hr⟩

theorem sentFirst_append {q : List EventRecord} {r : EventRecord} (h : sentFirst q)
    (hr : r.sent = .unsent) : sentFirst (q ++ [r]) := by
  rw [sentFirst_iff] at h ⊢
  refine List.pairwise_append.mpr ⟨h, List.pairwise_singleton _ _, fun _ _ x hx _ => ?_⟩
  rw [List.mem_singleton.mp hx, hr]

theorem sentFirst_drop {q : List EventRecord} (h : sentFirst q) (n : Nat) : sentFirst (q.drop n) :=
  (sentFirst_iff _).mpr (((sentFirst_iff q).mp h).sublist (List.drop_sublist n q))

theorem sentFirst_returnToUnsent (q : List EventRecord) : sentFirst (returnToUnsent q) := by
  rw [sentFirst_iff, returnToUnsent, List.pairwise_map]
  exact List.pairwise_of_forall fun _ _ _ => rfl

theorem sentFirst_markSent {q : List EventRecord} (h : sentFirst q) (n : Nat) :
    sentFirst (markSent q n) := by
  induction q generalizing n with
  | nil => trivial
  | cons r q ih =>
    cases n with
    | zero => exact h
    | succ n =>
      simp only [markSent]
      split
      · next hr => exact ⟨fun hu => absurd (hr.symm.trans hu) (by decide), ih h.2 _⟩
      · exact ⟨fun hu => (nomatch hu), ih h.2 _⟩

/-! ### The queue in order, and the timer (R108, R114, R118, R119) -/

/-- The first two parts of the invariant, of the event unit alone. -/
structure EventsSound (e : EventUnit) : Prop where
  serial : e.serial < Config.serialModulus
  run : ∃ first, first < Config.serialModulus ∧ serialsRun e.queue first e.serial
  order : sentFirst e.queue
  timer : e.timer ≠ .stopped ↔ e.delivery = .active ∧ sentCount e.queue ≠ 0
  suspended : e.delivery = .suspended → sentCount e.queue = 0 ∧ e.retry = 0

theorem eventsSound_iff (s : State) : EventsSound s.events ↔ QueueInOrder s ∧ DeliverySound s :=
  ⟨fun h => ⟨⟨h.serial, h.run, h.order⟩, h.timer, h.suspended⟩,
    fun ⟨⟨hserial, hrun, horder⟩, htimer, hsuspended⟩ => ⟨hserial, hrun, horder, htimer, hsuspended⟩⟩

section
variable {e : EventUnit} (h : EventsSound e)
include h

/-- A record that joins is UNSENT and takes the serial counter's value (R107). -/
theorem EventsSound.append {r : EventRecord} (hserial : r.serial = e.serial) (hr : r.sent = .unsent) :
    EventsSound (e.append r) := by
  obtain ⟨first, hfirst, hrun⟩ := h.run
  have hcount : sentCount (e.queue ++ [r]) = sentCount e.queue := by
    simp [sentCount, hr]
  exact {
    serial := wrap16_lt _
    run := ⟨first, hfirst, serialsRun_append hrun hserial⟩
    order := sentFirst_append h.order hr
    timer := by simpa only [EventUnit.append, hcount] using h.timer
    suspended := by simpa only [EventUnit.append, hcount] using h.suspended }

/-- With every record UNSENT and the timer stopped, delivery may be in any state. -/
theorem EventsSound.returned (delivery : Delivery) {retry : Nat} (xs : List LinkChange)
    (hretry : delivery = .suspended → retry = 0) :
    EventsSound { e with delivery := delivery, queue := returnToUnsent e.queue, timer := .stopped,
                         retry := retry, linkChanges := xs } := by
  obtain ⟨first, hfirst, hrun⟩ := h.run
  exact {
    serial := h.serial
    run := ⟨first, hfirst, (serialsRun_congr (returnToUnsent_serials _) _ _).mpr hrun⟩
    order := sentFirst_returnToUnsent _
    timer := by simp
    suspended := fun hd => ⟨sentCount_returnToUnsent _, hretry hd⟩ }

/-- A timeout comes to a running timer, so while delivery is ACTIVE. -/
theorem EventsSound.timeout (hdue : e.timer.due = true) (limit : Nat) : EventsSound (e.timeout limit) := by
  have hrunning : e.timer ≠ .stopped := fun hs => by simp [hs, Timer.due] at hdue
  obtain ⟨hactive, _⟩ := h.timer.mp hrunning
  simp only [EventUnit.timeout]
  split
  · exact { h with timer := by simp, suspended := fun hd => by cases hd }
  · exact h.returned e.delivery e.linkChanges fun hd => by rw [hactive] at hd; cases hd

theorem EventsSound.resume (xs : List LinkChange) :
    EventsSound { e with linkChanges := xs }.resume := by
  simp only [EventUnit.resume]
  split
  · exact h.returned .active xs fun _ => rfl
  · exact { h with }

/-- An EVENT frame carries at least one record, so the timer runs behind it (R116). -/
theorem EventsSound.afterGrant {g : Global} (hready : e.ready g.eventWindow = true) :
    EventsSound (e.afterGrant g) := by
  simp only [EventUnit.ready, Bool.and_eq_true, decide_eq_true_eq] at hready
  obtain ⟨⟨hactive, hunsent⟩, hwindow⟩ := hready
  have hcount := sentCount_markSent e.queue (e.frameCount g.eventWindow) (by
    simp only [EventUnit.frameCount]; omega)
  have hsent : sentCount (markSent e.queue (e.frameCount g.eventWindow)) ≠ 0 := by
    rw [hcount]
    simp only [EventUnit.frameCount, Config.eventFrameRecords]
    omega
  obtain ⟨first, hfirst, hrun⟩ := h.run
  exact {
    serial := h.serial
    run := ⟨first, hfirst, (serialsRun_congr (markSent_serials _ _) _ _).mpr hrun⟩
    order := sentFirst_markSent h.order _
    timer := by
      refine iff_of_true ?_ ⟨hactive, hsent⟩
      simp only [EventUnit.afterGrant]
      split <;> exact fun ht => by cases ht
    suspended := fun hd => by rw [show e.delivery = .suspended from hd] at hactive; cases hactive }

/-- An acknowledgement restarts the timer or stops it, by whether SENT records are left (R119, R120). -/
theorem EventsSound.acked (n timeout : Nat) :
    EventsSound { e with queue := e.queue.drop n, retry := 0,
                         timer := e.timerAfterAck (e.queue.drop n) timeout } := by
  obtain ⟨first, hfirst, hrun⟩ := h.run
  have hle : sentCount (e.queue.drop n) ≤ sentCount e.queue := (List.drop_sublist n e.queue).countP_le
  refine {
    serial := h.serial
    run := serialsRun_drop hfirst hrun n
    order := sentFirst_drop h.order n
    timer := ?_
    suspended := fun hd => ⟨Nat.le_zero.mp (hle.trans (h.suspended hd).1.le), rfl⟩ }
  show e.timerAfterAck _ _ ≠ _ ↔ e.delivery = _ ∧ _
  have htimer := h.timer
  cases hd : e.delivery with
  | active =>
    by_cases hzero : sentCount (e.queue.drop n) = 0 <;>
      simp [EventUnit.timerAfterAck, hd, hzero, startTimer]
  | failed | suspended => simpa [EventUnit.timerAfterAck, hd] using htimer

end

/-- STARTED alone in the queue (R112, R113): UNSENT, with serial 0. -/
theorem eventsSound_started {e : EventUnit} (ht : e.timer = .stopped)
    (hr : e.delivery = .suspended → e.retry = 0) (cause : Nat) : EventsSound (e.started cause) where
  serial := wrap16_lt _
  run := ⟨0, Nat.zero_lt_succ _, rfl, rfl⟩
  order := ⟨fun _ _ hx => absurd hx List.not_mem_nil, trivial⟩
  timer := iff_of_false (fun h => h ht) fun h => h.2 rfl
  suspended := fun hd => ⟨rfl, hr hd⟩

theorem EventsMove.sound {s : State} {e : EventUnit} (m : EventsMove s e) (h : EventsSound s.events) :
    EventsSound e := by
  cases m with
  | queued r _ hserial hr => exact h.append hserial hr
  | timedOut hdue => exact h.timeout hdue _
  | suspended xs _ => exact h.returned .suspended xs fun _ => rfl
  | resumed xs _ => exact h.resume xs
  | sent hready => exact h.afterGrant hready
  | acked n timeout => exact h.acked n timeout
  | resynced => exact h.returned .active s.events.linkChanges fun _ => rfl
  | restarted cUp => exact eventsSound_started rfl (fun _ => rfl) 1

/-- Losses and what is in flight to the event unit are no part of it. -/
theorem eventsSound_of_queues {s t : State} (h : t.queues = s.queues) (hs : EventsSound s.events) :
    EventsSound t.events := by
  have he : t.events.queues = s.events.queues := congrArg Queues.events h
  have hs : EventsSound s.events.queues := { hs with }
  rw [← he] at hs
  exact { hs with }

/-- What a move keeps once initialisation has completed. -/
def OperatingSound (s : State) : Prop := s.phase = .operating ∧ EventsSound s.events

theorem operatingSound_of_queues {s t : State} (h : t.queues = s.queues) (hs : OperatingSound s) :
    OperatingSound t :=
  ⟨(congrArg Queues.phase h).trans hs.1, eventsSound_of_queues h hs.2⟩

theorem OperatingSound.tick {s : State} (hs : OperatingSound s) : OperatingSound s.tick := by
  refine ⟨hs.1, { hs.2 with timer := Iff.trans ?_ hs.2.timer }⟩
  show s.events.timer.tick ≠ _ ↔ _
  cases s.events.timer <;> simp [Timer.tick]

theorem QueueMove.operatingSound {s t : State} (m : QueueMove s t) (hs : OperatingSound s) :
    OperatingSound t := by
  cases m with
  | same h => exact operatingSound_of_queues h hs
  | events m h => exact operatingSound_of_queues h ⟨hs.1, m.sound hs.2⟩
  | egress _ h => exact operatingSound_of_queues h hs
  | requests _ h => exact operatingSound_of_queues h hs
  | initialised hphase _ => rw [hs.1] at hphase; cases hphase
  | linkChanged x h => exact operatingSound_of_queues h ⟨hs.1, { hs.2 with }⟩
  | released xs _ h => exact operatingSound_of_queues h hs
  | ticked h => exact operatingSound_of_queues h hs.tick

theorem QueueMoves.operatingSound {s t : State} (m : QueueMoves s t) (hs : OperatingSound s) :
    OperatingSound t := by
  induction m with
  | refl => exact hs
  | tail _ m ih => exact m.operatingSound ih

/-! ### Initialisation (R165) -/

/-- A state in which every block stands at its hard-reset values, at some time. -/
def Machine.State.atReset (s : State) (straps : Fin 16) (now : Nat) : State :=
  { s.hardReset straps with timebase := now }

/-- A hard reset of a state at its hard-reset values leaves nothing to cut off. -/
theorem hardReset_atReset (s : State) (straps straps' : Fin 16) (now : Nat) :
    (s.atReset straps now).hardReset straps' = s.hardReset straps' := rfl

theorem initialisingAtReset_atReset (s : State) (straps : Fin 16) (now : Nat) :
    InitialisingAtReset (s.atReset straps now) := fun _ => rfl

theorem tick_atReset (s : State) (straps : Fin 16) (now : Nat) :
    (s.atReset straps now).tick = s.atReset straps (wrap32 (now + 1)) := rfl

/-- While initialisation runs, no command but its completion and a hard reset does anything. -/
theorem exec_atReset (s : State) (straps : Fin 16) (now : Nat) {i : Instr}
    (hi : ∀ cause straps', i ≠ .hardReset cause straps') (hc : i ≠ .initialisationComplete) :
    exec i (s.atReset straps now) = .next (s.atReset straps now) := by
  have hslot : ∀ k, (s.atReset straps now).slots.get k = Slot.reset := State.resetWith_slot straps
  have hrule : ∀ k, (s.atReset straps now).rules.get k = Rule.reset := State.resetWith_rule straps
  have hring : ∀ k, (s.atReset straps now).rings.get k = Ring.reset := State.resetWith_ring straps
  cases i with
  | hardReset cause straps' => exact absurd rfl (hi cause straps')
  | initialisationComplete => exact absurd rfl hc
  | receiveTrain p | undecodableSymbol p | receiveHold p | receiveGo p | lossOfLock p | frameReceived p
    | holdSentChange p | flowSymbolRepeat p | frameSendComplete p => cases p <;> rfl
  | fwPlace way => cases way <;> rfl
  | slotTakeSample k => simp only [exec, execSlotTakeSample, hslot]; rfl
  | slotTakeGapMark k => simp only [exec, execSlotTakeGapMark, hslot]; rfl
  | slotStart k => simp only [exec, execSlotStart, hslot]; rfl
  | ruleTakeValue k => simp only [exec, execRuleTakeValue, hrule]; rfl
  | ruleTakeGapMark k => simp only [exec, execRuleTakeGapMark, hrule]; rfl
  | ringTakeItem k => simp only [exec, execRingTakeItem, hring]; rfl
  | ringTakeGapMark k => simp only [exec, execRingTakeGapMark, hring]; rfl
  | ringFreeze k rule => simp only [exec, execRingFreeze, hring]; rfl
  | _ => rfl

/-- The completion queues STARTED(HARD) (R113). -/
theorem exec_initialisationComplete_atReset (s : State) (straps : Fin 16) (now : Nat) {t : State}
    (h : exec .initialisationComplete (s.atReset straps now) = .next t) : OperatingSound t := by
  cases h
  exact ⟨rfl, eventsSound_started rfl (fun _ => rfl) 0⟩

theorem eventsSound_resetWith (straps : Fin 16) : EventsSound (State.resetWith straps).events :=
  (eventsSound_iff _).mpr ⟨queueInOrder_resetWith straps, deliverySound_resetWith straps⟩

/-- The invariant, in either phase. -/
def EventUnitSound (s : State) : Prop := EventsSound s.events ∧ InitialisingAtReset s

theorem OperatingSound.eventUnitSound {s : State} (h : OperatingSound s) : EventUnitSound s :=
  ⟨h.2, fun hphase => by rw [h.1] at hphase; cases hphase⟩

theorem eventUnitSound_atReset (s : State) (straps : Fin 16) (now : Nat) :
    EventUnitSound (s.atReset straps now) :=
  ⟨eventsSound_resetWith straps, initialisingAtReset_atReset s straps now⟩

theorem EventUnitSound.exec {s t : State} (hs : EventUnitSound s) {i : Instr} (h : exec i s = .next t) :
    EventUnitSound t := by
  by_cases hi : ∃ cause straps, i = .hardReset cause straps
  · obtain ⟨cause, straps, rfl⟩ := hi
    simp only [Machine.exec, execHardReset] at h
    split at h <;> cases h
    · exact eventUnitSound_atReset s straps 0
    · exact hs
  · have hi : ∀ cause straps, i ≠ .hardReset cause straps := fun cause straps he => hi ⟨cause, straps, he⟩
    cases hphase : s.phase with
    | operating => exact ((exec_queueMoves hi h).operatingSound ⟨hphase, hs.1⟩).eventUnitSound
    | initialising =>
      have hreset : s = s.atReset s.straps s.timebase := hs.2 hphase
      rw [hreset] at h
      by_cases hc : i = .initialisationComplete
      · subst hc
        exact (exec_initialisationComplete_atReset s _ _ h).eventUnitSound
      · rw [exec_atReset s _ _ hi hc] at h
        cases h
        exact eventUnitSound_atReset s _ _

theorem EventUnitSound.tick {s : State} (hs : EventUnitSound s) : EventUnitSound s.tick := by
  cases hphase : s.phase with
  | operating => exact (OperatingSound.tick ⟨hphase, hs.1⟩).eventUnitSound
  | initialising =>
    have hreset : s = s.atReset s.straps s.timebase := hs.2 hphase
    rw [hreset, tick_atReset]
    exact eventUnitSound_atReset s _ _

/-- Settles O11: until initialisation completes nothing moves; from then on each move of the event unit keeps
its queue in order and its timer running exactly while it must. -/
theorem eventUnitStaysSound : Obligations.EventUnitStaysSound := by
  rintro s t ⟨hqueue, hdelivery, hreset⟩ h
  have hs : EventUnitSound s := ⟨(eventsSound_iff s).mpr ⟨hqueue, hdelivery⟩, hreset⟩
  have ht : EventUnitSound t := by
    rcases step_cases h with rfl | ⟨c, rest, _, h⟩
    · exact hs.tick
    · have hreset : InitialisingAtReset { s with pending := rest } := fun hphase =>
        congrArg (fun u : State => { u with pending := rest }) (hreset hphase)
      exact EventUnitSound.exec (s := { s with pending := rest }) ⟨hs.1, hreset⟩ h
  obtain ⟨hqueue, hdelivery⟩ := (eventsSound_iff t).mp ht.1
  exact ⟨hqueue, hdelivery, ht.2⟩

end Sys2Proof

/-! ## The queues, the timers, GLOBAL, the counts and the shares (O12) -/

namespace Sys2Proof

open Sys2Proof.Machine

/-! ### Each block's part of the invariant -/

/-- What bounds the scheduler's queues, and ties its hold timer and streak to them (R148, R153, R159, R160). -/
structure EgressSound (g : Egress) : Prop where
  fw : g.fw.length ≤ Config.fwCapacity
  dt : g.dt.length ≤ Config.dtCapacity
  ob : g.ob.length ≤ Config.obCapacity
  mr : (g.mr.map (·.place)).Nodup
  openFrame : g.openFrame.length < Config.reducedFrameRecords
  held : g.held = true → g.fw = [] ∧ g.dt = [] ∧ g.mr = [] ∧ g.openFrame = []
  holdTimer : g.holdTimer ≠ .stopped ↔ g.openFrame ≠ []
  streak : g.dt = [] → g.streak = 0
  streakBound : g.streak ≤ 16

/-- What bounds the event queue and its SENT records (R107). -/
structure EventsBounded (e : EventUnit) : Prop where
  queue : e.queue.length ≤ Config.eventCapacity
  sent : sentCount e.queue ≤ 16

/-- What bounds the requests, GLOBAL and the shares (R129, R138, R141). -/
structure RequestsSound (s : State) : Prop where
  waiting : s.management.waiting.length ≤ Config.pendingCapacity
  globals : GlobalInRange s
  shares : SharesSound s

structure QueuesSound (s : State) : Prop where
  egress : EgressSound s.egress
  events : EventsBounded s.events
  requests : RequestsSound s
  link : EventsTookTheLink s

theorem queuesSound_iff (s : State) : QueuesSound s ↔
    QueuesBounded s ∧ HeldEmpty s ∧ EventsTookTheLink s ∧ HoldTimerSound s ∧ GlobalInRange s
      ∧ CountsBounded s ∧ SharesSound s := by
  constructor
  · rintro ⟨g, e, r, hlink⟩
    exact ⟨⟨g.fw, g.dt, g.ob, g.mr, g.openFrame, e.queue, r.waiting⟩, g.held, hlink, g.holdTimer, r.globals,
      ⟨g.streak, g.streakBound, e.sent⟩, r.shares⟩
  · rintro ⟨⟨fw, dt, ob, mr, openFrame, queue, waiting⟩, held, link, holdTimer, globals,
      ⟨streak, streakBound, sent⟩, shares⟩
    exact {
      egress := { fw, dt, ob, mr, openFrame, held, holdTimer, streak, streakBound }
      events := { queue, sent }
      requests := { waiting, globals, shares }
      link }

/-! ### What the invariant does not look at -/

section
variable {s t : State}

theorem egressSound_of_queues {g g' : Egress} (h : g'.queues = g.queues) (hg : EgressSound g) :
    EgressSound g' := by
  have hg : EgressSound g.queues := { hg with }
  rw [← h] at hg
  exact { hg with }

theorem eventsBounded_of_queues {e e' : EventUnit} (h : e'.queues = e.queues) (he : EventsBounded e) :
    EventsBounded e' := by
  have he : EventsBounded e.queues := { he with }
  rw [← h] at he
  exact { he with }

theorem requestsSound_of_queues (h : t.management.queues = s.management.queues) (hs : RequestsSound s) :
    RequestsSound t := by
  have hcurrent : t.management.current = s.management.current := (congrArg Management.current h :)
  have hcache : t.management.cache = s.management.cache := (congrArg Management.cache h :)
  have hwaiting : t.management.waiting = s.management.waiting := (congrArg Management.waiting h :)
  have hglobal : t.management.global = s.management.global := (congrArg Management.global h :)
  have htaken : t.management.shares.taken = s.management.shares.taken :=
    (congrArg (fun m => m.shares.taken) h :)
  obtain ⟨waiting, globals, hnodup, hexecutes⟩ := hs
  refine ⟨hwaiting ▸ waiting, ?_, htaken ▸ hnodup, ?_⟩
  · simpa only [GlobalInRange, State.ownNode, hglobal] using globals
  · simpa only [htaken, executes_congr hcurrent hcache] using hexecutes

theorem queuesSound_of_queues (h : t.queues = s.queues) (hs : QueuesSound s) : QueuesSound t := by
  have hegress : t.egress.queues = s.egress.queues := congrArg Queues.egress h
  have hevents : t.events.queues = s.events.queues := congrArg Queues.events h
  have hheld : t.egress.held = s.egress.held := (congrArg Egress.held hegress :)
  have hchanges : t.egress.cChanges = s.egress.cChanges := (congrArg Egress.cChanges hegress :)
  have hlinks : t.events.linkChanges = s.events.linkChanges := (congrArg EventUnit.linkChanges hevents :)
  exact {
    egress := egressSound_of_queues hegress hs.egress
    events := eventsBounded_of_queues hevents hs.events
    requests := requestsSound_of_queues (congrArg Queues.management h) hs.requests
    link := by simpa only [EventsTookTheLink, hheld, hchanges, hlinks] using hs.link }

end

/-! ### The scheduler (R148 to R160) -/

theorem EgressSound.held_eq_false {g : Egress} (h : EgressSound g) (hopen : g.openFrame ≠ []) :
    g.held = false := by
  cases hheld : g.held
  · rfl
  · obtain ⟨_, _, _, hempty⟩ := h.held hheld
    exact absurd hempty hopen

/-- A reply takes the place of the one that waits there, so the places stay distinct (R157). -/
theorem places_nodup {q : List MrReply} (h : (q.map (·.place)).Nodup) (place : Fin 4) (r : Reply) :
    ((q.filter (fun x : MrReply => decide (x.place ≠ place)) ++ [(⟨place, r⟩ : MrReply)]).map
      MrReply.place).Nodup := by
  rw [List.map_append, List.nodup_append]
  refine ⟨h.sublist (List.filter_sublist.map _), List.nodup_singleton _, ?_⟩
  rintro a ha _ hb rfl
  obtain ⟨x, hx, rfl⟩ := List.mem_map.mp ha
  simp only [List.mem_filter, decide_eq_true_eq] at hx
  exact hx.2 (List.mem_singleton.mp hb)

section
variable {s : State} (h : EgressSound s.egress)
include h

theorem EgressMove.sound {g : Egress} (m : EgressMove s g) (hstreak : s.management.global.dtStreak ≤ 16) :
    EgressSound g := by
  have free : s.egress.held = false → ∀ {P : Prop}, s.egress.held = true → P :=
    fun hf _ ht => by rw [hf] at ht; cases ht
  cases m with
  | fwPlaced frame hfree hroom =>
    exact { h with
      fw := by simpa using hroom
      held := free hfree }
  | fwGranted frame rest hfront hdue =>
    have hfw : rest.length ≤ Config.fwCapacity := by
      have := h.fw
      rw [hfront, List.length_cons] at this
      omega
    have hbound : (if s.egress.dt = [] then 0 else s.egress.streak + 1) ≤ 16 := by
      split
      · omega
      · next hne => have := hdue hne; omega
    exact { h with
      fw := hfw
      held := fun hheld => by simp [(h.held hheld).1] at hfront
      streak := fun hdt => if_pos hdt
      streakBound := hbound }
  | obChanged q hroom => exact { h with ob := hroom h.ob }
  | opened r hfree =>
    exact { h with
      openFrame := by simp
      held := free hfree
      holdTimer := by simp [startTimer] }
  | joined r hopen hroom =>
    exact { h with
      openFrame := by simpa using hroom
      held := free (h.held_eq_false hopen)
      holdTimer := iff_of_true (h.holdTimer.mpr hopen) (by simp) }
  | closed =>
    exact { h with
      openFrame := by simp
      held := fun hheld => by
        obtain ⟨hfw, hdt, hmr, _⟩ := h.held hheld
        exact ⟨hfw, hdt, hmr, rfl⟩
      holdTimer := by simp }
  | dtPlaced frame hfree hroom =>
    exact { h with
      dt := by simpa using hroom
      held := free (hfree.elim id h.held_eq_false)
      streak := fun hdt => by simp at hdt }
  | dtGranted frame rest hfront =>
    have hdt : rest.length ≤ Config.dtCapacity := by
      have := h.dt
      rw [hfront, List.length_cons] at this
      omega
    exact { h with
      dt := hdt
      held := fun hheld => by simp [(h.held hheld).2.1] at hfront
      streak := fun _ => rfl
      streakBound := Nat.zero_le _ }
  | dtFiltered p =>
    exact { h with
      dt := (List.length_filter_le _ _).trans h.dt
      held := fun hheld => by
        obtain ⟨hfw, hdt, hmr, hopen⟩ := h.held hheld
        exact ⟨hfw, by rw [hdt]; rfl, hmr, hopen⟩
      streak := fun hdt => if_pos hdt
      streakBound := by
        show (if _ then _ else _) ≤ 16
        split
        · exact Nat.zero_le _
        · exact h.streakBound }
  | mrPlaced place r hfree =>
    exact { h with
      mr := places_nodup h.mr place r
      held := free hfree }
  | mrShortened q hpart =>
    exact { h with
      mr := h.mr.sublist (hpart.map _)
      held := fun hheld => by
        obtain ⟨hfw, hdt, hmr, hopen⟩ := h.held hheld
        exact ⟨hfw, hdt, List.sublist_nil.mp (hmr ▸ hpart), hopen⟩ }
  | emptied =>
    exact { h with
      fw := Nat.zero_le _
      dt := Nat.zero_le _
      mr := List.nodup_nil
      openFrame := by simp
      held := fun _ => ⟨rfl, rfl, rfl, rfl⟩
      holdTimer := by simp
      streak := fun _ => rfl
      streakBound := Nat.zero_le _ }
  | heldEmpty xs hfw hdt hmr hopen => exact { h with held := fun _ => ⟨hfw, hdt, hmr, hopen⟩ }

end

/-- A move of the scheduler alone never releases its queues. -/
theorem EgressMove.link {s : State} {g : Egress} (m : EgressMove s g) (h : EventsTookTheLink s) :
    EventsTookTheLink { s with egress := g } := by
  cases m with
  | heldEmpty xs => exact fun hheld => by cases hheld
  | _ => exact h

/-! ### The event unit (R107, R115, R116) -/

theorem EventsMove.bounded {s : State} {e : EventUnit} (m : EventsMove s e) (h : EventsBounded s.events)
    (hwindow : s.management.global.eventWindow ≤ 16) : EventsBounded e := by
  have returned : (returnToUnsent s.events.queue).length ≤ Config.eventCapacity
      ∧ sentCount (returnToUnsent s.events.queue) ≤ 16 := by simpa using h.queue
  cases m with
  | queued r hroom _ hr =>
    refine ⟨?_, ?_⟩
    · simpa [EventUnit.append] using hroom
    · simpa [EventUnit.append, sentCount, hr] using h.sent
  | timedOut =>
    simp only [EventUnit.timeout]
    split
    · exact { h with }
    · exact ⟨returned.1, returned.2⟩
  | suspended => exact ⟨returned.1, returned.2⟩
  | resumed =>
    simp only [EventUnit.resume]
    split
    · exact ⟨returned.1, returned.2⟩
    · exact { h with }
  | sent hready =>
    have hcount := sentCount_markSent s.events.queue
      (s.events.frameCount s.management.global.eventWindow) (by simp only [EventUnit.frameCount]; omega)
    simp only [EventUnit.ready, Bool.and_eq_true, decide_eq_true_eq] at hready
    refine ⟨?_, ?_⟩
    · simpa [EventUnit.afterGrant] using h.queue
    · show sentCount (markSent _ _) ≤ 16
      rw [hcount]
      simp only [EventUnit.frameCount]
      omega
  | acked n =>
    have hsub := List.drop_sublist n s.events.queue
    exact ⟨hsub.length_le.trans h.queue, hsub.countP_le.trans h.sent⟩
  | resynced => exact ⟨returned.1, returned.2⟩
  | restarted => exact ⟨Nat.le_of_ble_eq_true rfl, Nat.zero_le _⟩

/-- The event unit takes a change of the C-port only where one is in flight to it. -/
theorem EventsMove.linkChanges {s : State} {e : EventUnit} (m : EventsMove s e)
    (h : s.events.linkChanges = []) : e.linkChanges = [] := by
  cases m with
  | suspended xs hx | resumed xs hx => rw [h] at hx; cases hx
  | timedOut => simp only [EventUnit.timeout]; split <;> exact h
  | _ => exact h

theorem EventsMove.link {s : State} {e : EventUnit} (m : EventsMove s e) (h : EventsTookTheLink s) :
    EventsTookTheLink { s with events := e } :=
  fun hheld hchanges => m.linkChanges (h hheld hchanges)

/-! ### The management unit (R129, R138, R141, R142, R145) -/

/-- A value of GLOBAL that a write names is in its range, and node id is none of them (R134, R138). -/
theorem globalInRange_write {s : State} (h : GlobalInRange s) {mask : Nat} {v : List Byte} {g : Global}
    (hg : s.management.global.write mask v = some g) :
    GlobalInRange { s with management := { s.management with global := g } } := by
  obtain ⟨⟨_, hwindow, htimeout, hlimit, hhold, hstreak⟩, rfl⟩ := (reads_globalWrite _ _ _).of_eq_some hg
  have pick : ∀ {k lo hi x old : Nat}, (mask.testBit k = true → lo ≤ x ∧ x ≤ hi) → lo ≤ old ∧ old ≤ hi →
      lo ≤ (if mask.testBit k = true then x else old) ∧ (if mask.testBit k = true then x else old) ≤ hi := by
    intro k lo hi x old hx hold
    split
    · next hk => exact hx hk
    · exact hold
  obtain ⟨hnode, hwindow', htimeout', hlimit', hhold', hstreak'⟩ := h
  exact ⟨hnode, pick hwindow hwindow',
    pick (fun hk => ⟨htimeout hk, Nat.le_of_lt_succ (byteAt_lt v 3)⟩) htimeout', pick hlimit hlimit',
    pick hhold hhold', pick hstreak hstreak'⟩

theorem sharesSound_none {s : State} (h : s.management.shares.taken = []) : SharesSound s :=
  ⟨h ▸ List.nodup_nil, fun hne => absurd h hne⟩

/-- With no request being executed no share is taken. -/
theorem SharesSound.taken_of_idle {s : State} (h : SharesSound s) (hidle : s.management.current = none) :
    s.management.shares.taken = [] := by
  by_contra hne
  obtain ⟨q, code, ⟨hq, _⟩, _⟩ := h.2 hne
  simp [State.currentRequest, hidle] at hq

/-- The shares taken are all taken in the request being executed, which has one code (R141). -/
theorem SharesSound.takesPart {s : State} (h : SharesSound s) {q : Request} {code : Nat}
    (hx : Executes s q code) : ∀ b ∈ s.management.shares.taken, takesPart code b := by
  intro b hb
  obtain ⟨q', code', ⟨hq', hcode', _⟩, _, hall⟩ := h.2 (List.ne_nil_of_mem hb)
  obtain ⟨hq, hcode, _⟩ := hx
  obtain rfl := Option.some.inj (hq.symm.trans hq')
  rw [← hcode, hcode']
  exact hall b hb

theorem RequestMove.sound {s : State} {m : Management} (hm : RequestMove s m) (h : RequestsSound s) :
    RequestsSound { s with management := m } := by
  cases hm with
  | taken payload hidle =>
    exact ⟨h.waiting, h.globals, sharesSound_none (h.shares.taken_of_idle hidle)⟩
  | waits payload hroom => exact ⟨by simpa using hroom, h.globals, h.shares⟩
  | finished cache =>
    have hlength : s.management.waiting.tail.length ≤ s.management.waiting.length := by simp
    exact ⟨hlength.trans h.waiting, h.globals, sharesSound_none rfl⟩
  | @shareTaken q code b hx hl hpart hleft =>
    refine ⟨h.waiting, h.globals, ?_, fun _ => ⟨q, code, hx, hl, fun b' hb' => ?_⟩⟩
    · exact List.nodup_append.mpr ⟨h.shares.1, List.nodup_singleton b, fun a ha b' hb' hab =>
        hleft (by rwa [hab, List.mem_singleton.mp hb'] at ha)⟩
    · rcases List.mem_append.mp hb' with hb' | hb'
      · exact h.shares.takesPart hx b' hb'
      · rwa [List.mem_singleton.mp hb']
  | globalWritten mask v hg => exact ⟨h.waiting, globalInRange_write h.globals hg, h.shares⟩

/-! ### Every step -/

theorem QueuesSound.tick {s : State} (hs : QueuesSound s) : QueuesSound s.tick := by
  refine { hs with
    egress := { hs.egress with holdTimer := Iff.trans ?_ hs.egress.holdTimer }
    events := { hs.events with }
    requests := { hs.requests with } }
  show s.egress.holdTimer.tick ≠ _ ↔ _
  cases s.egress.holdTimer <;> simp [Timer.tick]

theorem QueueMove.queuesSound {s t : State} (m : QueueMove s t) (hs : QueuesSound s) : QueuesSound t := by
  obtain ⟨_, ⟨_, hwindow⟩, _, _, _, _, hstreak⟩ := hs.requests.globals
  cases m with
  | same h => exact queuesSound_of_queues h hs
  | events m h =>
    exact queuesSound_of_queues h { hs with
      events := m.bounded hs.events hwindow, link := m.link hs.link, requests := { hs.requests with } }
  | egress m h =>
    exact queuesSound_of_queues h { hs with
      egress := EgressMove.sound hs.egress m hstreak, link := m.link hs.link
      requests := { hs.requests with } }
  | requests m h => exact queuesSound_of_queues h { hs with requests := m.sound hs.requests, link := hs.link }
  | initialised _ h =>
    exact queuesSound_of_queues h { hs with
      events := ⟨Nat.le_of_ble_eq_true rfl, Nat.zero_le _⟩, link := hs.link
      requests := { hs.requests with } }
  | linkChanged x h =>
    refine queuesSound_of_queues h { hs with
      egress := { hs.egress with }, events := { hs.events with }, requests := { hs.requests with }
      link := fun _ hempty => ?_ }
    simp at hempty
  | released xs htaken h =>
    exact queuesSound_of_queues h { hs with
      egress := { hs.egress with held := fun hheld => by cases hheld }
      requests := { hs.requests with }, link := fun _ _ => htaken }
  | ticked h => exact queuesSound_of_queues h hs.tick

theorem QueueMoves.queuesSound {s t : State} (m : QueueMoves s t) (hs : QueuesSound s) : QueuesSound t := by
  induction m with
  | refl => exact hs
  | tail _ m ih => exact m.queuesSound ih

theorem queuesSound_resetWith (straps : Fin 16) : QueuesSound (State.resetWith straps) := by
  obtain ⟨_, hbounded, _, _, _, _, _, ⟨hheld, hlink, htimer, hglobal, hcounts⟩, hshares, _⟩ :=
    invariantsHoldAtReset straps _ rfl
  exact (queuesSound_iff _).mpr ⟨hbounded, hheld, hlink, htimer, hglobal, hcounts, hshares⟩

theorem QueuesSound.exec {s t : State} (hs : QueuesSound s) {i : Instr} (h : exec i s = .next t) :
    QueuesSound t := by
  by_cases hi : ∃ cause straps, i = .hardReset cause straps
  · obtain ⟨cause, straps, rfl⟩ := hi
    simp only [Machine.exec, execHardReset] at h
    split at h <;> cases h
    · exact queuesSound_of_queues (s := State.resetWith straps) rfl (queuesSound_resetWith straps)
    · exact hs
  · exact (exec_queueMoves (fun cause straps he => hi ⟨cause, straps, he⟩) h).queuesSound hs

/-- Settles O12: each move of the scheduler, the event unit and the management unit keeps that block's
bounds, and the scheduler releases its queues only when the event unit has taken every change. -/
theorem queuesStaySound : Obligations.QueuesStaySound := by
  intro s t hs h
  rw [← queuesSound_iff] at hs ⊢
  rcases step_cases h with rfl | ⟨c, rest, _, h⟩
  · exact hs.tick
  · exact QueuesSound.exec (s := { s with pending := rest }) (queuesSound_of_queues (s := s) rfl hs) h

end Sys2Proof

/-! ## Delivery, EVENT_ACK and EVENT_RESYNC (O41, O58, O59) -/

namespace Sys2Proof

open Sys2Proof.Machine

/-! ### The SENT and the UNSENT records of a queue (R108) -/

section
variable {q sent unsent : List EventRecord}

theorem sentCount_eq_zero_iff : sentCount q = 0 ↔ ¬ ∃ r ∈ q, r.sent = .sent := by
  simp [sentCount, List.countP_eq_zero]

theorem sentCount_of_sent (h : ∀ r ∈ q, r.sent = .sent) : sentCount q = q.length :=
  List.countP_eq_length.mpr fun r hr => decide_eq_true (h r hr)

theorem sentCount_of_unsent (h : ∀ r ∈ q, r.sent = .unsent) : sentCount q = 0 :=
  sentCount_eq_zero_iff.mpr fun ⟨r, hr, hsent⟩ => by simp [h r hr] at hsent

theorem unsentCount_of_unsent (h : ∀ r ∈ q, r.sent = .unsent) : unsentCount q = q.length :=
  List.countP_eq_length.mpr fun r hr => decide_eq_true (h r hr)

theorem unsentCount_of_sent (h : ∀ r ∈ q, r.sent = .sent) : unsentCount q = 0 :=
  List.countP_eq_zero.mpr fun r hr => by simp [h r hr]

theorem sentCount_of_split (hsent : ∀ r ∈ sent, r.sent = .sent)
    (hunsent : ∀ r ∈ unsent, r.sent = .unsent) : sentCount (sent ++ unsent) = sent.length := by
  rw [sentCount_append, sentCount_of_sent hsent, sentCount_of_unsent hunsent, Nat.add_zero]

theorem unsentCount_of_split (hsent : ∀ r ∈ sent, r.sent = .sent)
    (hunsent : ∀ r ∈ unsent, r.sent = .unsent) : unsentCount (sent ++ unsent) = unsent.length := by
  rw [unsentCount, List.countP_append, ← unsentCount, ← unsentCount, unsentCount_of_sent hsent,
    unsentCount_of_unsent hunsent, Nat.zero_add]

theorem unsent_of_mem_returnToUnsent {r : EventRecord} (h : r ∈ returnToUnsent q) : r.sent = .unsent := by
  obtain ⟨x, _, rfl⟩ := List.mem_map.mp h
  rfl

end

/-- How many records the next EVENT frame takes of a queue of SENT records before UNSENT ones (R116). -/
theorem frameCount_of_split {e : EventUnit} {sent unsent : List EventRecord} (hq : e.queue = sent ++ unsent)
    (hsent : ∀ r ∈ sent, r.sent = .sent) (hunsent : ∀ r ∈ unsent, r.sent = .unsent) (w : Nat) :
    e.frameCount w = min 4 (min (w - sent.length) unsent.length) := by
  rw [EventUnit.frameCount, hq, sentCount_of_split hsent hunsent, unsentCount_of_split hsent hunsent]

/-- The next EVENT frame carries the head of the UNSENT records (R116). -/
theorem frameRecords_of_split {e : EventUnit} {sent unsent : List EventRecord}
    (hq : e.queue = sent ++ unsent) (hsent : ∀ r ∈ sent, r.sent = .sent)
    (hunsent : ∀ r ∈ unsent, r.sent = .unsent) (w : Nat) :
    e.frameRecords w = unsent.take (min 4 (min (w - sent.length) unsent.length)) := by
  have hnone : sent.filter (fun r => decide (r.sent = .unsent)) = [] :=
    List.filter_eq_nil_iff.mpr fun r hr => by simp [hsent r hr]
  have hall : unsent.filter (fun r => decide (r.sent = .unsent)) = unsent :=
    List.filter_eq_self.mpr fun r hr => decide_eq_true (hunsent r hr)
  rw [EventUnit.frameRecords, frameCount_of_split hq hsent hunsent, hq, List.filter_append, hnone, hall,
    List.nil_append]

/-! ### Delivery states (R114, R118) -/

/-- Settles O41: each of the three commands is one equation of the event unit, its premise naming the
branch that is taken. -/
theorem deliveryFollowsTimerAndLink : Obligations.DeliveryFollowsTimerAndLink := by
  rintro s _ rfl
  refine ⟨fun htimer => ?_, fun xs hlink => ?_, fun xs hlink hdelivery => ?_⟩
  · have hdue : s.events.timer.due = true := by rw [htimer]; rfl
    simp only [exec, execRetransmitTimeout, hdue, if_true, EventUnit.timeout]
    rfl
  · simp only [exec, execDeliverySuspend, hlink]
    rfl
  · simp only [exec, execDeliveryResume, hlink, EventUnit.resume, hdelivery]
    rfl

/-! ### EVENT_ACK (R111, R119, R120) -/

/-- An acknowledgement of a serial that no SENT record has names no records. -/
theorem ackLength_eq_none {q : List EventRecord} {serial : Nat}
    (h : ∀ r ∈ q, ¬ (r.serial = serial ∧ r.sent = .sent)) : ackLength q serial = none := by
  cases hack : ackLength q serial with
  | none => rfl
  | some n =>
    obtain ⟨gone, r, rest, rfl, _, hserial, hsent⟩ := ackLength_eq_some hack
    exact absurd ⟨hserial, hsent⟩ (h r (by simp))

/-- An acknowledgement names the records up to the first with its serial, where that one is SENT. -/
theorem ackLength_append {r : EventRecord} {serial : Nat} (hserial : r.serial = serial)
    (hsent : r.sent = .sent) (rest : List EventRecord) :
    ∀ gone : List EventRecord, (∀ x ∈ gone, x.serial ≠ serial) →
      ackLength (gone ++ r :: rest) serial = some (gone.length + 1)
  | [], _ => if_pos ⟨hserial, hsent⟩
  | x :: gone, h => by
    obtain ⟨hx, hgone⟩ := List.forall_mem_cons.mp h
    rw [List.cons_append, ackLength, if_neg (fun hxs => hx hxs.1),
      ackLength_append hserial hsent rest gone hgone]
    rfl

theorem timerAfterAck_eq (e : EventUnit) (rest : List EventRecord) (timeout : Nat) :
    e.timerAfterAck rest timeout = if e.delivery = .active then
      (if ∃ x ∈ rest, x.sent = .sent then .running (timeout * 1000) else .stopped) else e.timer := by
  cases hd : e.delivery with
  | active =>
    simp only [EventUnit.timerAfterAck, hd, if_true, sentCount_eq_zero_iff, ite_not]
    rfl
  | failed => simp [EventUnit.timerAfterAck, hd]
  | suspended => simp [EventUnit.timerAfterAck, hd]

/-- What settling a pending loss does where the queue has a free place, whether or not there is one
(R111). -/
theorem settleLoss_of_room {e : EventUnit} {now : Nat} (hroom : e.queue.length < 128)
    (hserial : e.serial < 65536) {loss : List EventRecord}
    (hloss : loss = if e.pendingLoss = 0 then []
      else [ownRecord .loss 0 (some e.pendingLoss) now e.serial]) :
    e.settleLoss now = { e with
      queue := e.queue ++ loss, pendingLoss := 0, serial := (e.serial + loss.length) % 65536 } := by
  by_cases hpending : e.pendingLoss = 0
  · rw [settleLoss_of_nothingLost hpending, hloss, if_pos hpending, List.append_nil, List.length_nil,
      Nat.add_zero, Nat.mod_eq_of_lt hserial, ← hpending]
  · rw [settleLoss_of_due hroom hpending, hloss, if_neg hpending]
    rfl

/-- What EVENT_ACK answers for its arguments (R120). -/
def eventAckAnswer (args : List Byte) (t : State) : Option Answer :=
  match ackLength t.events.queue (read2 args 0) with
  | some n =>
    some (.ok, [byteOf n],
      { t with events := t.events.acked n t.management.global.retransmitTimeout t.timebase })
  | none => some (.state, [], t)

section
variable {s : State} {q : Request} {b₁ b₀ : Byte} (hq : Executes s q 0x10) (ha : q.args = [b₁, b₀])
include hq ha

theorem exec_eventAck_refused (h : ackLength s.events.queue (b₁.toNat * 256 + b₀.toNat) = none) :
    exec .eventAck s = .next (answered s q .state []) := by
  have hserial : read2 q.args 0 = b₁.toNat * 256 + b₀.toNat := by rw [ha]; rfl
  exact hq.exec_answers (run := eventAckAnswer) rfl (ha ▸ rfl) (by rw [eventAckAnswer, hserial, h])

theorem exec_eventAck_removes {n : Nat}
    (h : ackLength s.events.queue (b₁.toNat * 256 + b₀.toNat) = some n) :
    exec .eventAck s = .next (answered { s with
      events := s.events.acked n s.management.global.retransmitTimeout s.timebase } q .ok [byteOf n]) := by
  have hserial : read2 q.args 0 = b₁.toNat * 256 + b₀.toNat := by rw [ha]; rfl
  exact hq.exec_answers (run := eventAckAnswer) rfl (ha ▸ rfl) (by rw [eventAckAnswer, hserial, h])

end

/-- Settles O58: the acknowledgement names the records up to the serial's, and their leaving makes room for
the LOSS record. -/
theorem eventAckRemovesRecords : Obligations.EventAckRemovesRecords := by
  rintro s q b₁ b₀ _ hq ha rfl
  refine ⟨fun hnone => exec_eventAck_refused hq ha (ackLength_eq_none hnone), ?_⟩
  intro gone rest r timer loss hqueue hserial hsent hgone hfull hcounter htimer hloss
  have hack : ackLength s.events.queue (b₁.toNat * 256 + b₀.toNat) = some (gone.length + 1) := by
    rw [hqueue]
    exact ackLength_append hserial hsent rest gone hgone
  have hrest : s.events.queue.drop (gone.length + 1) = rest := by
    rw [hqueue, List.append_cons]
    exact List.drop_left' (by simp)
  have hroom : rest.length < 128 := by
    rw [hqueue, List.length_append, List.length_cons] at hfull
    omega
  have hacked : s.events.acked (gone.length + 1) s.management.global.retransmitTimeout s.timebase
      = { s.events with
          queue := rest ++ loss, retry := 0, timer := timer, pendingLoss := 0
          serial := (s.events.serial + loss.length) % 65536 } := by
    rw [EventUnit.acked, hrest, timerAfterAck_eq, ← htimer]
    exact settleLoss_of_room (e := { s.events with queue := rest, retry := 0, timer := timer }) hroom
      hcounter hloss
  rw [exec_eventAck_removes hq ha hack, hacked]

/-! ### EVENT_RESYNC (R122) -/

/-- What EVENT_RESYNC answers (R122). -/
def eventResyncAnswer (_ : List Byte) (t : State) : Option Answer :=
  if t.events.delivery = .suspended then some (.state, [], t)
  else some (.ok, [], { t with events := t.events.resynced })

/-- Settles O59: the resync is refused in SUSPENDED alone, and the queue it leaves has no SENT record. -/
theorem eventResyncReturnsToUnsent : Obligations.EventResyncReturnsToUnsent := by
  rintro s q _ hq ha rfl
  have answer {status : Status} {t : State} (h : eventResyncAnswer [] s = some (status, [], t)) :
      exec .eventResync s = .next (answered t q status []) :=
    hq.exec_answers (run := eventResyncAnswer) rfl (ha ▸ rfl) (ha ▸ h)
  refine ⟨fun hd => answer (if_pos hd), fun hd => answer (if_neg hd), fun w => ?_⟩
  exact frameRecords_of_split (sent := []) rfl (by simp) (fun r hr => unsent_of_mem_returnToUnsent hr) w

end Sys2Proof

/-! ## The arbiter's grants (O42, O45) -/

namespace Sys2Proof

open Sys2Proof.Machine

/-! ### The arbiter's choice (R158, R159) -/

section
variable {s : State}

theorem arbiterFree_of_idle (hup : s.cPort.link = .up) (hidle : s.cPort.sending = none)
    (hpaused : s.cPort.paused = false) (hheld : s.egress.held = false) (hchanges : s.egress.cChanges = []) :
    s.arbiterFree = true := by
  simp [State.arbiterFree, hup, hidle, hpaused, hheld, hchanges]

theorem exec_arbiterGrant {t : State} {c : Claimant} (hfree : s.arbiterFree = true)
    (hchoice : s.arbiterChoice = some c) (hgrant : s.grant c = some t) :
    exec .arbiterGrant s = .next t := by
  simp only [exec, execArbiterGrant, hfree, if_true, hchoice, hgrant]
  rfl

theorem exec_arbiterGrant_none (hfree : s.arbiterFree = true) (hchoice : s.arbiterChoice = none) :
    exec .arbiterGrant s = .next s := by
  simp only [exec, execArbiterGrant, hfree, if_true, hchoice]

theorem arbiterChoice_mr (h : s.egress.mr ≠ []) : s.arbiterChoice = some .mr := if_pos h

theorem arbiterChoice_ev (hmr : s.egress.mr = [])
    (hready : s.events.ready s.management.global.eventWindow = true) : s.arbiterChoice = some .ev := by
  rw [State.arbiterChoice, if_neg (not_not.mpr hmr), if_pos hready]

section
variable (hmr : s.egress.mr = []) (hready : s.events.ready s.management.global.eventWindow = false)
include hmr hready

/-- Below MR and EV the choice is between the streak's DT, FW and DT (R159). -/
theorem arbiterChoice_below : s.arbiterChoice =
    if s.management.global.dtStreak ≤ s.egress.streak ∧ s.egress.dt ≠ [] then some .dt
    else if s.egress.fw ≠ [] then some .fw
    else if s.egress.dt ≠ [] then some .dt else none := by
  rw [State.arbiterChoice, if_neg (not_not.mpr hmr), if_neg (by simp [hready])]

theorem arbiterChoice_fw (hdue : s.egress.dt = [] ∨ s.egress.streak < s.management.global.dtStreak)
    (hfw : s.egress.fw ≠ []) : s.arbiterChoice = some .fw := by
  have hnot : ¬ (s.management.global.dtStreak ≤ s.egress.streak ∧ s.egress.dt ≠ []) :=
    fun ⟨hle, hne⟩ => hdue.elim hne (Nat.not_lt.mpr hle)
  rw [arbiterChoice_below hmr hready, if_neg hnot, if_pos hfw]

theorem arbiterChoice_dt (hdue : s.management.global.dtStreak ≤ s.egress.streak ∨ s.egress.fw = [])
    (hdt : s.egress.dt ≠ []) : s.arbiterChoice = some .dt := by
  rw [arbiterChoice_below hmr hready]
  rcases hdue with hdue | hfw
  · rw [if_pos ⟨hdue, hdt⟩]
  · rw [if_neg (not_not.mpr hfw), if_pos hdt, ite_self]

theorem arbiterChoice_none (hfw : s.egress.fw = []) (hdt : s.egress.dt = []) : s.arbiterChoice = none := by
  rw [arbiterChoice_below hmr hready, if_neg (fun h => h.2 hdt), if_neg (not_not.mpr hfw),
    if_neg (not_not.mpr hdt)]

end

/-! ### What the readout engine finds after a grant (R95) -/

theorem produceOne_of_free (h : s.readout.engine = .free) : s.produceOne = some s := by
  simp only [State.produceOne, h]

theorem produceUpTo_of_free (h : s.readout.engine = .free) : ∀ n, s.produceUpTo n = some s
  | 0 => rfl
  | n + 1 => by
    rw [State.produceUpTo, produceOne_of_free h, Option.bind_some]
    exact produceUpTo_of_free h n

/-- A free engine has nothing to place (R95, R102). -/
theorem examineEngine_of_free (h : s.readout.engine = .free) : s.examineEngine = some s := by
  have hplace : s.placeTerminator = s :=
    State.placeTerminator_eq_self fun x hx => by rw [h] at hx; cases hx
  rw [State.examineEngine, hplace]
  exact produceUpTo_of_free h _

/-! ### What a grant changes (R116, R156, R157, R159) -/

theorem grant_mr {x : MrReply} {xs : List MrReply} (h : s.egress.mr = x :: xs) :
    s.grant .mr = some { s with
      egress := { s.egress with mr := xs }
      cPort := s.cPort.beginFrame (x.reply.bytes s.ownNode) } := by
  simp only [State.grant, State.grantMr, h]
  rfl

theorem grant_fw {f : List Byte} {fs : List (List Byte)} (h : s.egress.fw = f :: fs) :
    s.grant .fw = some { s with
      egress := { s.egress with fw := fs, streak := if s.egress.dt = [] then 0 else s.egress.streak + 1 }
      fPort := { s.fPort with occupancy := s.fPort.occupancy ++ [.removed fs.length] }
      cPort := s.cPort.beginFrame f } := by
  simp only [State.grant, State.grantFw, h]
  rfl

theorem grant_dt_reduced {records : List OutputRecord} {ds : List DtFrame}
    (h : s.egress.dt = .reduced records :: ds) (hfree : s.readout.engine = .free) :
    s.grant .dt = some { s with
      egress := { s.egress with dt := ds, streak := 0 }
      cPort := s.cPort.beginFrame (reducedFrame s.ownNode records) } := by
  simp only [State.grant, State.grantDt, h]
  exact examineEngine_of_free hfree

end

/-- Settles O45: the premises of each clause name the arbiter's choice, and each grant is one equation. -/
theorem arbiterGrantsByPriority : Obligations.ArbiterGrantsByPriority := by
  rintro s ready _ _ _ _ _ hup hidle hpaused hheld hchanges hiff rfl rfl rfl rfl rfl
  have hfree := arbiterFree_of_idle hup hidle hpaused hheld hchanges
  have hready : s.events.ready s.management.global.eventWindow = ready :=
    Bool.eq_iff_iff.mpr (s.evReady_iff.trans hiff.symm)
  subst hready
  refine ⟨fun x xs hmr => ?_, fun hmr hready => ?_, fun f fs hmr hready hdue hfw => ?_,
    fun records ds hmr hready hdue hdt hengine => ?_, fun hmr hready hfw hdt => ?_⟩
  · exact exec_arbiterGrant hfree (arbiterChoice_mr (by simp [hmr])) (grant_mr hmr)
  · exact ⟨s.grantEv, exec_arbiterGrant hfree (arbiterChoice_ev hmr hready) rfl, rfl, nofun⟩
  · exact exec_arbiterGrant hfree (arbiterChoice_fw hmr hready hdue (by simp [hfw])) (grant_fw hfw)
  · exact exec_arbiterGrant hfree (arbiterChoice_dt hmr hready hdue (by simp [hdt]))
      (grant_dt_reduced hdt hengine)
  · exact exec_arbiterGrant_none hfree (arbiterChoice_none hmr hready hfw hdt)

/-! ### The EVENT frame (R108, R115, R116) -/

@[simp] theorem markSent_zero (q : List EventRecord) : markSent q 0 = q := by
  cases q <;> rfl

/-- Of UNSENT records the first become SENT. -/
theorem markSent_of_unsent : ∀ {q : List EventRecord} (n : Nat), (∀ r ∈ q, r.sent = .unsent) →
    markSent q n = (q.take n).map (fun r => { r with sent := .sent }) ++ q.drop n
  | [], _, _ => by simp [markSent]
  | _ :: _, 0, _ => rfl
  | r :: q, n + 1, h => by
    obtain ⟨hr, hq⟩ := List.forall_mem_cons.mp h
    simp only [markSent, hr, markSent_of_unsent n hq, List.take_succ_cons, List.map_cons,
      List.drop_succ_cons, List.cons_append]

/-- The SENT records before them stay as they are (R108). -/
theorem markSent_append_of_sent : ∀ {q : List EventRecord} (u : List EventRecord) (n : Nat),
    (∀ r ∈ q, r.sent = .sent) → markSent (q ++ u) n = q ++ markSent u n
  | [], _, _, _ => rfl
  | _ :: _, _, 0, _ => by simp
  | r :: q, u, n + 1, h => by
    obtain ⟨hr, hq⟩ := List.forall_mem_cons.mp h
    simp only [List.cons_append, markSent, hr, markSent_append_of_sent u (n + 1) hq]

theorem evReady_of_split {s : State} {sent unsent : List EventRecord} (hactive : s.events.delivery = .active)
    (hq : s.events.queue = sent ++ unsent) (hsent : ∀ r ∈ sent, r.sent = .sent)
    (hunsent : ∀ r ∈ unsent, r.sent = .unsent) (hsome : unsent ≠ [])
    (hroom : sent.length < s.management.global.eventWindow) : EvReady s := by
  obtain ⟨r, hr⟩ := List.exists_mem_of_ne_nil unsent hsome
  refine ⟨hactive, ⟨r, by simp [hq, hr], hunsent r hr⟩, ?_⟩
  rw [← List.countP_eq_length_filter, hq]
  exact (sentCount_of_split hsent hunsent).trans_lt hroom

/-- Settles O42: the frame's records are the head of the UNSENT ones, and marking them leaves the SENT
ones before them. -/
theorem eventFrameCarriesOldestUnsent : Obligations.EventFrameCarriesOldestUnsent := by
  intro s sent unsent n hup hidle hpaused hheld hchanges hmr hactive hq hsent hunsent hsome hroom hn
  have hlength : 0 < unsent.length := List.length_pos_of_ne_nil hsome
  have hcount : s.events.frameCount s.management.global.eventWindow = n :=
    (frameCount_of_split hq hsent hunsent _).trans hn.symm
  have hrecords : s.events.frameRecords s.management.global.eventWindow = unsent.take n := by
    rw [frameRecords_of_split hq hsent hunsent, ← hn]
  have hmarked : (s.events.afterGrant s.management.global).queue
      = sent ++ (unsent.take n).map (fun r => { r with sent := .sent }) ++ unsent.drop n := by
    show markSent _ _ = _
    rw [hcount, hq, markSent_append_of_sent unsent n hsent, markSent_of_unsent n hunsent, List.append_assoc]
  have hready := s.evReady_iff.mpr (evReady_of_split hactive hq hsent hunsent hsome hroom)
  have hgrant : s.grant .ev = some { s with
      events := s.events.afterGrant s.management.global
      cPort := s.cPort.beginFrame (eventFrame s.ownNode (unsent.take n)) } := by
    rw [← hrecords]
    rfl
  refine ⟨by omega, _, exec_arbiterGrant (arbiterFree_of_idle hup hidle hpaused hheld hchanges)
    (arbiterChoice_ev hmr hready) hgrant, hmarked, fun htimer => ?_, fun left htimer => ?_, rfl, rfl⟩
  · simp only [EventUnit.afterGrant, htimer]
    rfl
  · simp only [EventUnit.afterGrant, htimer]

end Sys2Proof

/-! ## A port in TRAINING and in DOWN, and the entry to UP (O16) -/

namespace Sys2Proof

open Sys2Proof.Machine

/-! ### What a port takes before UP (R165, R166) -/

section
variable {s : State} {p : PortId}

theorem countTrain_eq (x : Port) : x.countTrain = { x with
    trainCount := if x.trainCount < 8 then x.trainCount + 1 else 8
    heard := decide (8 ≤ x.trainCount + 1) } := by
  have hcount : min (x.trainCount + 1) 8 = if x.trainCount < 8 then x.trainCount + 1 else 8 := by
    split <;> omega
  rw [Port.countTrain, hcount]

section
variable (h : (s.port p).link = .training)
include h

theorem exec_receiveTrain_counts {heard : Bool} (hstays : heard = false ∨ (s.port p).trainCount + 1 < 8) :
    exec (.receiveTrain p heard) s = .next (s.setPort p (s.port p).countTrain) := by
  have hnot : ¬ (heard = true ∧ 8 ≤ min ((s.port p).trainCount + 1) 8) := by
    rintro ⟨rfl, hcount⟩
    rcases hstays with hfalse | hbelow
    · cases hfalse
    · omega
  simp only [exec, execReceiveTrain, h]
  exact if_neg hnot

theorem exec_receiveTrain_enters (hcount : 7 ≤ (s.port p).trainCount) :
    exec (.receiveTrain p true) s = .next ((s.setPort p (s.port p).countTrain).enterUp p) := by
  have hfull : 8 ≤ min ((s.port p).trainCount + 1) 8 := by omega
  simp only [exec, execReceiveTrain, h]
  exact if_pos ⟨trivial, hfull⟩

theorem receiveFlow_below (hcount : (s.port p).trainCount < 8) (paused : Bool) :
    s.receiveFlow p paused = s := by
  simp only [State.receiveFlow, h]
  exact if_neg (Nat.not_le.mpr hcount)

theorem receiveFlow_enters (hcount : (s.port p).trainCount = 8) (paused : Bool) :
    s.receiveFlow p paused = s.enterUp p := by
  simp only [State.receiveFlow, h]
  exact if_pos hcount.ge

end

theorem receiveFlow_of_down (h : (s.port p).link = .down) (paused : Bool) :
    s.receiveFlow p paused = s := by
  simp only [State.receiveFlow, h]

theorem exec_frameReceived_of_notUp (h : (s.port p).link ≠ .up) (bytes : List Byte) :
    exec (.frameReceived p bytes) s = .next s := if_neg fun hup => h hup.1

/-! ### Entering UP (R106, R167, R174, R175) -/

/-- What entering UP changes: the port, the requests of the event unit and, of the C-port, what the
scheduler and the event unit are told. -/
theorem enterUp_eq (s : State) (p : PortId) : s.enterUp p = { s.setPort p (s.port p).enterUp with
    events := { s.events with
      requests := s.events.requests ++ [linkStateRequest p .cameUp s.timebase]
      linkChanges := s.events.linkChanges ++ (if p = .c then [.cameUp] else []) }
    egress := { s.egress with
      cChanges := s.egress.cChanges ++ (if p = .c then [.cameUp] else []) } } := by
  rw [State.enterUp, State.tellLinkChange_eq]
  cases p <;> simp [State.requestEvent, State.setPort]

theorem linkStateRequest_cameUp (p : PortId) (now : Nat) : linkStateRequest p .cameUp now
    = { requester := .port p, kind := .linkState, subject := if p = .f then 1 else 3,
        channel := none, value := none, count := none, time := now } := by
  cases p <;> rfl

/-- A port as it enters UP, with count 8 and a heard flag (R166, R167). -/
def enteredUp (x : Port) (heard : Bool) : Port :=
  { x with
    link := .up, trainCount := 8, paused := false, heard := heard, flowElapsed := 0
    line := x.line ++ [.symbol (if x.holdSent = true then .hold else .go)] }

theorem enterUp_countTrain {x : Port} (h : 7 ≤ x.trainCount) : x.countTrain.enterUp = enteredUp x true := by
  have hcount : min (x.trainCount + 1) 8 = 8 := by omega
  have hheard : decide (8 ≤ x.trainCount + 1) = true := decide_eq_true (by omega)
  rw [Port.countTrain, hcount, hheard]
  rfl

theorem enterUp_of_counted {x : Port} (h : x.trainCount = 8) : x.enterUp = enteredUp x x.heard := by
  rw [enteredUp, ← h]
  rfl

/-- The state that a port in TRAINING leaves as it enters UP with a heard flag. -/
def withPortUp (s : State) (p : PortId) (heard : Bool) : State :=
  { s.setPort p (enteredUp (s.port p) heard) with
    events := { s.events with
      requests := s.events.requests ++ [linkStateRequest p .cameUp s.timebase]
      linkChanges := s.events.linkChanges ++ (if p = .c then [.cameUp] else []) }
    egress := { s.egress with
      cChanges := s.egress.cChanges ++ (if p = .c then [.cameUp] else []) } }

theorem port_withPortUp_self {heard : Bool} :
    (withPortUp s p heard).port p = enteredUp (s.port p) heard := by
  cases p <;> rfl

theorem port_withPortUp_other {r : PortId} {heard : Bool} (hr : r ≠ p) :
    (withPortUp s p heard).port r = s.port r := by
  have hset : (withPortUp s p heard).port r = (s.setPort p (enteredUp (s.port p) heard)).port r := by
    cases r <;> rfl
  rw [hset, State.port_setPort, if_neg hr.symm]

theorem exec_entersUp {c : Instr} (h : (s.port p).link = .training)
    (hc : (c = .receiveTrain p true ∧ 7 ≤ (s.port p).trainCount)
      ∨ ((c = .receiveHold p ∨ c = .receiveGo p) ∧ (s.port p).trainCount = 8)) :
    exec c s = .next (withPortUp s p (if c = .receiveTrain p true then true else (s.port p).heard)) := by
  have hflow : (s.port p).trainCount = 8 → ∀ paused,
      s.receiveFlow p paused = withPortUp s p (s.port p).heard := by
    intro hcount paused
    rw [receiveFlow_enters h hcount, enterUp_eq, enterUp_of_counted hcount]
    rfl
  rcases hc with ⟨rfl, hcount⟩ | ⟨rfl | rfl, hcount⟩
  · rw [exec_receiveTrain_enters h hcount, enterUp_eq, State.port_setPort_self, enterUp_countTrain hcount,
      if_pos rfl]
    cases p <;> rfl
  · exact congrArg Host.Outcome.next (hflow hcount true)
  · exact congrArg Host.Outcome.next (hflow hcount false)

end

/-- Settles O16: before UP every command is one equation per link state, and the three symbols that complete
training leave the same state but for heard. -/
theorem trainingAndEnteringUp : Obligations.TrainingAndEnteringUp := by
  refine ⟨fun p s => ⟨fun h => ?_, fun h => ?_⟩, fun p c s h hc => ?_⟩
  · refine ⟨fun heard hstays => ?_, ?_, ?_, fun hbelow => ?_, fun bytes => ?_⟩
    · rw [exec_receiveTrain_counts h hstays, countTrain_eq]
    · simp only [exec, execUndecodableSymbol, h, Port.restartTraining]
    · simp only [exec, execLossOfLock, h, Port.restartTraining]
    · exact ⟨congrArg Host.Outcome.next (receiveFlow_below h hbelow true),
        congrArg Host.Outcome.next (receiveFlow_below h hbelow false)⟩
    · exact exec_frameReceived_of_notUp (by rw [h]; nofun) bytes
  · refine ⟨fun heard => ?_, ?_, ?_, ?_, ?_, fun bytes => ?_⟩
    · simp only [exec, execReceiveTrain, h]
    · simp only [exec, execUndecodableSymbol, h]
    · simp only [exec, execLossOfLock, h]
    · exact congrArg Host.Outcome.next (receiveFlow_of_down h true)
    · exact congrArg Host.Outcome.next (receiveFlow_of_down h false)
    · exact exec_frameReceived_of_notUp (by rw [h]; nofun) bytes
  · refine ⟨_, exec_entersUp h hc, ?_⟩
    rw [port_withPortUp_self]
    refine ⟨rfl, rfl, rfl, rfl, rfl, rfl, rfl, fun r hr => port_withPortUp_other hr, ?_, rfl, rfl, ?_⟩
    · rw [← linkStateRequest_cameUp]
      rfl
    · cases p <;> rfl

end Sys2Proof

/-! ## Frames that are handed on (O21) -/

namespace Sys2Proof

open Sys2Proof.Machine

/-! ### The places a frame goes to (R129, R162, R172) -/

section
variable (s : State)

theorem placeOb_eq (bytes : List Byte) : s.placeOb bytes = { s with
    cPort := { s.cPort with occupancy := s.cPort.occupancy
      ++ (if s.egress.ob.length < 8 then [.joined (s.egress.ob.length + 1)] else []) }
    egress := { s.egress with
      ob := s.egress.ob ++ (if s.egress.ob.length < 8 then [bytes] else [])
      obDrops := if 8 ≤ s.egress.ob.length then min (s.egress.obDrops + 1) 4294967295
        else s.egress.obDrops } } := by
  by_cases hroom : s.egress.ob.length < 8
  · simp only [State.placeOb, hroom, if_true, if_neg (Nat.not_le.mpr hroom)]
    rfl
  · simp only [State.placeOb, hroom, if_false, if_pos (Nat.not_lt.mp hroom), List.append_nil]
    rfl

theorem arriveRequest_eq (payload : List Byte) : s.arriveRequest payload = { s with
    cPort := { s.cPort with
      malformed := if s.management.current ≠ none ∧ 4 ≤ s.management.waiting.length
        then min (s.cPort.malformed + 1) 4294967295 else s.cPort.malformed }
    management := { s.management with
      current := if s.management.current = none then some payload else s.management.current
      waiting := s.management.waiting
        ++ (if s.management.current ≠ none ∧ s.management.waiting.length < 4 then [payload] else []) } } := by
  rcases s.arriveRequest_cases payload with ⟨hfree, h⟩ | ⟨hbusy, hroom, h⟩ | ⟨hbusy, hfull, h⟩
  · simp [h, hfree]
  · simp [h, hbusy, hroom, Nat.not_le.mpr hroom]
  · simp [h, hbusy, hfull, Nat.not_lt.mpr hfull, bump32, sat32]

/-- A frame at the C-port: taken as a request where it is for the part, and copied toward the field unless
it is addressed to the part alone (R126, R161). -/
theorem handOn_cPort {bytes : List Byte} {forPart copied : Bool}
    (hfor : (addressedRequest s.ownNode bytes || broadcastIdent bytes) = forPart)
    (hcopied : addressedRequest s.ownNode bytes = !copied) : s.handOn .c bytes = { s with
      cPort := { s.cPort with
        malformed := if forPart = true ∧ s.management.current ≠ none ∧ 4 ≤ s.management.waiting.length
          then min (s.cPort.malformed + 1) 4294967295 else s.cPort.malformed
        occupancy := s.cPort.occupancy ++ (if copied = true ∧ s.egress.ob.length < 8
          then [.joined (s.egress.ob.length + 1)] else []) }
      management := { s.management with
        current := if forPart = true ∧ s.management.current = none then some (framePayload bytes)
          else s.management.current
        waiting := s.management.waiting ++ (if forPart = true ∧ s.management.current ≠ none
          ∧ s.management.waiting.length < 4 then [framePayload bytes] else []) }
      egress := { s.egress with
        ob := s.egress.ob ++ (if copied = true ∧ s.egress.ob.length < 8 then [bytes] else [])
        obDrops := if copied = true ∧ 8 ≤ s.egress.ob.length then min (s.egress.obDrops + 1) 4294967295
          else s.egress.obDrops } } := by
  subst hfor
  cases copied with
  | false => simp [State.handOn, hcopied, arriveRequest_eq]
  | true =>
    cases hall : broadcastIdent bytes with
    | false => simp [State.handOn, hcopied, hall, placeOb_eq]
    | true => simp [State.handOn, hcopied, hall, arriveRequest_eq, placeOb_eq]

end

theorem addressedRequest_eq (own : Nat) (bytes : List Byte) : addressedRequest own bytes
    = !decide (¬ (frameKind bytes = 3 ∧ frameDest bytes = own)) := by
  simp [addressedRequest]

theorem addressed_or_broadcast (own : Nat) (bytes : List Byte) :
    (addressedRequest own bytes || broadcastIdent bytes) = decide (frameKind bytes = 3
      ∧ (frameDest bytes = own ∨ (frameDest bytes = 31 ∧ 3 ≤ (framePayload bytes).length
        ∧ byteAt (framePayload bytes) 2 = 1))) := by
  rw [Bool.eq_iff_iff]
  simp [addressedRequest, broadcastIdent, and_or_left, and_assoc]

/-- A frame that passes the checks of a port in UP counts as good and is handed on (R171). -/
theorem exec_frameReceived_accepted {s : State} {p : PortId} {bytes : List Byte}
    (hup : (s.port p).link = .up) (h : Accepted bytes) :
    exec (.frameReceived p bytes) s = .next ((s.setPort p
      { s.port p with framesGood := min ((s.port p).framesGood + 1) 4294967295 }).handOn p bytes) := by
  obtain ⟨hcrc, hlength, hkind⟩ := h
  have hlong : 2 ≤ bytes.length := by
    simp only [lengthGood, Bool.and_eq_true, decide_eq_true_eq] at hlength
    omega
  simp only [exec, execFrameReceived, hup, hlong, and_self, if_true, State.takeFrame, hcrc, hlength, hkind,
    Bool.true_eq_false, or_self, if_false]
  rfl

/-- Settles O21: a frame that passes is handed on by its port, and at the C-port by whether it is a request
for the part and whether it is addressed to another. -/
theorem acceptedFramesAreHandedOn : Obligations.AcceptedFramesAreHandedOn := by
  refine ⟨fun s bytes hup h => ?_, ?_⟩
  · rw [exec_frameReceived_accepted (p := .f) hup h]
    by_cases hsample : frameKind bytes = 1
    · simp [State.handOn, State.setPort, State.port, hsample]
    · simp [State.handOn, State.setPort, State.port, hsample]
  · rintro s bytes _ _ _ hup h rfl rfl rfl
    refine ⟨_, exec_frameReceived_accepted (p := .c) hup h, ?_⟩
    rw [handOn_cPort _ (addressed_or_broadcast _ bytes) (addressedRequest_eq _ bytes)]
    exact ⟨rfl, rfl, rfl, rfl, rfl, rfl, rfl, rfl⟩

end Sys2Proof

/-! ## The stages by which a request is taken (O49) -/

namespace Sys2Proof

open Sys2Proof.Machine

/-! ### Stages 2 to 6 of R128 -/

section
variable {s : State} {q : Request}

theorem serve_badTag (ht : 4 ≤ q.tag.toNat) (good : Bool) (run : State → Option Answer) :
    s.serve q good run = some (repliedOnly s q (bareReply q .badLength)) := if_pos ht

theorem serve_cached (ht : q.tag.toNat < 4) {r : Reply} (hr : s.cachedFor q = some r) (good : Bool)
    (run : State → Option Answer) : s.serve q good run = some (repliedOnly s q r) := by
  simp only [State.serve, if_neg (Nat.not_le.mpr ht), hr]
  rfl

theorem serve_answers {code : Nat} (h : Executes s q code) {run : State → Option Answer} {status : Status}
    {results : List Byte} {t : State} (hrun : run s = some (status, results, t)) :
    s.serve q true run = some (answered t q status results) := by
  obtain ⟨_, _, ht, hnew⟩ := h
  simp only [State.serve, if_neg (Nat.not_le.mpr ht), hnew, if_true, hrun]
  rfl

theorem cachedFor_of_repeat {x : CachedReply} (hx : s.management.cache.get (tagPlace q.tag) = some x)
    (hn : x.number = q.number) : s.cachedFor q = some x.reply := by
  simp only [State.cachedFor, hx, hn, if_true]

theorem executes_eq_false (hq : s.currentRequest = some q) {code : Nat}
    (h : Executes s q code → argumentLengthGood code q.args = false) : s.executes code = false := by
  rw [Bool.eq_false_iff, ne_eq, State.executes_iff]
  rintro ⟨q', hx, hl⟩
  obtain rfl : q = q' := Option.some.inj (hq.symm.trans hx.1)
  rw [h hx] at hl
  cases hl

/-! ### The request commands (R128, R129) -/

/-- Where its request does not reach execution, each request command is the shared operation, those that
several blocks take part in too. -/
theorem exec_eq_request {c : Instr} {code : Nat} (h : requestCode c = some code)
    (hx : s.executes code = false) : ∃ run, exec c s = s.request code run := by
  cases c <;> cases h
  case readStatus => exact ⟨_, State.gather_eq_request _ _ _ hx⟩
  case clearCounters => exact ⟨_, State.gather_eq_request _ _ _ hx⟩
  case restart => exact ⟨_, State.gather_eq_request _ _ _ hx⟩
  all_goals
    rw [exec]
    exact ⟨_, rfl⟩

theorem exec_unknownCode (hq : s.currentRequest = some q) (hc : q.code.toNat = 0 ∨ 0x12 < q.code.toNat) :
    exec .unknownCode s = captureOutcome (s.serve q true fun t => some (.unknownRequest, [], t)) := by
  have hunknown : codeKnown q.code.toNat = false := by
    simp only [codeKnown, Bool.and_eq_false_iff, decide_eq_false_iff_not]
    omega
  simp only [exec, execUnknownCode, hq, hunknown, Bool.false_eq_true, if_false]

/-- A command that finds its request, one of an unknown code included, takes it through the stages. -/
theorem exec_serves {c : Instr} (hq : s.currentRequest = some q)
    (hc : requestCode c = some q.code.toNat ∨ c = .unknownCode ∧ (q.code.toNat = 0 ∨ 0x12 < q.code.toNat))
    (hx : ¬ Executes s q q.code.toNat) : ∃ good run, exec c s = captureOutcome (s.serve q good run) := by
  rcases hc with hc | ⟨rfl, hc⟩
  · obtain ⟨run, hrun⟩ := exec_eq_request hc (executes_eq_false hq fun h => absurd h hx)
    refine ⟨argumentLengthGood q.code.toNat q.args, run q.args, hrun.trans ?_⟩
    simp only [State.request, hq, if_true]
  · exact ⟨_, _, exec_unknownCode hq hc⟩

theorem exec_requestTooShort {payload : List Byte} (hp : s.management.current = some payload)
    (hshort : payload.length < 3) :
    exec .requestTooShort s = .next (s.chargeMalformed .c).finishRequest := by
  have hnone : readRequest payload = none := by
    match payload, hshort with
    | [], _ => rfl
    | [_], _ => rfl
    | [_, _], _ => rfl
  simp only [exec, execRequestTooShort, hp, hnone]

end

/-- Settles O49: every request command goes through the one shared operation up to its execution, and a reply
reaches the cache and MR by the two ways of answering. -/
theorem requestsAreTakenInStages : Obligations.RequestsAreTakenInStages := by
  refine ⟨⟨fun c s q hq hc => ⟨fun ht => ?_, fun ht x hx hn => ?_⟩, fun c code s q hc hx hl => ?_, ?_, ?_⟩,
    fun s payload hp hshort => ?_, fun s q code hx hunknown => ?_⟩
  · obtain ⟨good, run, hexec⟩ := exec_serves hq hc fun ⟨_, _, hlt, _⟩ => absurd hlt (Nat.not_lt.mpr ht)
    rw [hexec, serve_badTag ht, captureOutcome]
  · have hcached := cachedFor_of_repeat hx hn
    obtain ⟨good, run, hexec⟩ := exec_serves hq hc fun ⟨_, _, _, hnew⟩ => by simp [hcached] at hnew
    rw [hexec, serve_cached ht hcached, captureOutcome]
  · obtain ⟨run, hexec⟩ := exec_eq_request hc (executes_eq_false hx.1 fun _ => hl)
    rw [hexec, hx.request_badLength run hl]
  · rintro s _ q r _ rfl rfl
    rw [repliedOnly_eq]
    exact ⟨rfl, rfl, rfl, rfl, rfl, rfl⟩
  · rintro s _ q status results _ _ rfl rfl rfl
    rw [answered_eq]
    exact ⟨rfl, Table.get_set_self _ _ _, fun other h => Table.get_set_ne _ _ h.symm, rfl, rfl, rfl, rfl, rfl⟩
  · exact ⟨_, exec_requestTooShort hp hshort, rfl, rfl⟩
  · have hanswer := exec_unknownCode hx.1 (hx.2.1.symm ▸ hunknown)
    rw [hanswer, serve_answers hx rfl, captureOutcome]

end Sys2Proof

/-! ## IDENT, READ_STATUS, CLEAR_COUNTERS and SET_TIME (O50) -/

namespace Sys2Proof

open Sys2Proof.Machine

/-! ### The blocks' shares of READ_STATUS and CLEAR_COUNTERS (R140, R142) -/

theorem takesPart_status_iff {code : Nat} (hc : code = 6 ∨ code = 7) (b : Block) :
    takesPart code b ↔ b ∈ statusOwners := by
  refine ⟨fun h => ?_, takesPart_status hc b⟩
  rw [takesPart, if_pos hc] at h
  simpa [statusOwners] using h

/-- A block's share of READ_STATUS adds its values to those given before, and nothing else changes. -/
theorem statusShare_eq (b : Block) (s : State) :
    s.statusShare b = s.setReadings (withReading s b s.management.shares.readings) := by
  cases b with
  | events => simp only [State.statusShare, withReading, EventUnit.reading, sentCount,
      List.countP_eq_length_filter]
  | readout =>
    simp only [State.statusShare, withReading, Readout.reading, readoutsInDt_eq]
    cases s.readout.engine <;> rfl
  | _ => rfl

theorem setReadings_setReadings (s : State) (x y : Readings) :
    (s.setReadings x).setReadings y = s.setReadings y := rfl

/-- What a block gives is no reading given before. -/
theorem withReading_setReadings (s : State) (x y : Readings) (b : Block) :
    withReading (s.setReadings x) b y = withReading s b y := by
  cases b <;> rfl

theorem countsCleared_clearShare (s : State) (b : Block) : CountsCleared s (s.clearShare b) b := by
  cases b with
  | classifier => exact ⟨fun n => Table.get_map _ _ n, rfl⟩
  | _ => rfl

theorem results_eq_statusBytes (x : Readings) : x.results = statusBytes x := by
  rw [Readings.results, statusBytes]
  refine congrArg₂ (· ++ ·) ?_ ?_
  · simp only [List.flatMap_cons, List.flatMap_nil, List.append_nil, List.append_assoc]
  · cases x.events.delivery <;> cases x.fPort.link <;> rfl

section
variable {s : State} {blocks : List Block} {code : Nat} (hp : ∀ b, takesPart code b ↔ b ∈ blocks)
include hp

theorem outstanding_ne_nil (h : ∃ b, takesPart code b ∧ b ∉ s.management.shares.taken) :
    s.outstanding blocks ≠ [] := by
  obtain ⟨b, hb, hnot⟩ := h
  exact List.ne_nil_of_mem (State.mem_outstanding.mpr ⟨(hp b).mp hb, hnot⟩)

theorem outstanding_eq_nil (h : ∀ b, takesPart code b → b ∈ s.management.shares.taken) :
    s.outstanding blocks = [] :=
  List.eq_nil_iff_forall_not_mem.mpr fun b hb => by
    obtain ⟨hb, hnot⟩ := State.mem_outstanding.mp hb
    exact hnot (h b ((hp b).mpr hb))

end

/-! ### Shares whose order does not matter (R141, R142) -/

/-- The part with the shares of some blocks noted, one free choice made for each. -/
def noted (s : State) (bs : List Block) : State :=
  { s with
    management := { s.management with shares := { s.management.shares with taken := bs } }
    choices := s.choices + bs.length }

/-- The work of some blocks, one after another. -/
def worked (work : Block → State → State) (s : State) (bs : List Block) : State :=
  bs.foldl (fun t b => work b t) s

/-- What each block does in a request is its own: no block's work meets another's, nor the note of the
shares, and the request, the cache and the number of choices stay. -/
structure SharesApart (work : Block → State → State) : Prop where
  comm : ∀ b c s, work b (work c s) = work c (work b s)
  work_noted : ∀ b s bs, work b (noted s bs) = noted (work b s) bs
  current : ∀ b s, (work b s).management.current = s.management.current
  cache : ∀ b s, (work b s).management.cache = s.management.cache
  choices : ∀ b s, (work b s).choices = s.choices

theorem statusShare_apart : SharesApart State.statusShare where
  comm b c s := by cases b <;> cases c <;> rfl
  work_noted b s bs := by cases b <;> rfl
  current b s := by cases b <;> rfl
  cache b s := by cases b <;> rfl
  choices b s := by cases b <;> rfl

theorem clearShare_apart : SharesApart State.clearShare where
  comm b c s := by cases b <;> cases c <;> rfl
  work_noted b s bs := by cases b <;> rfl
  current b s := by cases b <;> rfl
  cache b s := by cases b <;> rfl
  choices b s := by cases b <;> rfl

section
variable {work : Block → State → State} (hw : SharesApart work) {s : State} {q : Request} {code : Nat}
include hw

theorem SharesApart.executes_worked (h : Executes s q code) (bs : List Block) :
    Executes (worked work s bs) q code := by
  induction bs generalizing s with
  | nil => exact h
  | cons b bs ih => exact ih ((executes_congr (hw.current b s) (hw.cache b s) q code).mpr h)

theorem SharesApart.worked_perm {bs cs : List Block} (h : bs.Perm cs) (s : State) :
    worked work s bs = worked work s cs :=
  h.foldl_eq' (fun b _ c _ t => hw.comm c b t) s

theorem SharesApart.gatherRun (h : Executes s q code) (hl : argumentLengthGood code q.args = true)
    (blocks : List Block) : GatherRun q code blocks work fun bs => noted (worked work s bs) bs where
  executes bs := hw.executes_worked h bs
  length := hl
  taken _ := rfl
  share bs b _ _ := by
    rw [State.takeShare, hw.work_noted, worked, worked, List.foldl_append]
    simp [noted, State.noteShare, hw.choices, Nat.add_assoc]

/-- Run with nothing between, the request's commands do every block's work and then answer; the blocks'
order shows in the noted shares alone. -/
theorem SharesApart.run (h : Executes s q code) (hl : argumentLengthGood code q.args = true)
    (hnone : s.management.shares.taken = []) {blocks : List Block} (hn : blocks.Nodup) {c : Instr}
    {answer : State → Answer} (hc : ∀ t, exec c t = t.gather code blocks work answer) :
    ∃ (u : State) (bs : List Block), u = noted (worked work s blocks) bs ∧ bs.length = blocks.length
      ∧ runAll (List.replicate (blocks.length + 1) c) s
        = .next (answered (answer u).2.2 q (answer u).1 (answer u).2.1) := by
  obtain ⟨bs, hall, hlen, hrun⟩ := (hw.gatherRun h hl blocks).answers hc hn
  have hperm : blocks.Perm bs := (List.subperm_of_subset hn hall).perm_of_length_le hlen.le
  have hstart : noted (worked work s []) [] = s := by
    have hshares : { s.management.shares with taken := [] } = s.management.shares := by rw [← hnone]
    simp only [noted, worked, List.foldl_nil, hshares, List.length_nil, Nat.add_zero]
  rw [hstart] at hrun
  exact ⟨_, bs, by rw [hw.worked_perm hperm], hlen, hrun⟩

end

theorem answered_noted (s : State) (bs : List Block) (q : Request) (status : Status) (results : List Byte) :
    answered (noted s bs) q status results
      = answered { s with choices := s.choices + bs.length } q status results :=
  answered_setShares { s with choices := s.choices + bs.length } _ q status results

/-- All owning blocks together give what each has at that moment. -/
theorem worked_statusShare (s : State) : worked State.statusShare s statusOwners
    = s.setReadings (readingsNow s s.management.shares.readings) := by
  have hperm : statusOwners.Perm [.readout, .classifier, .events, .egress, .cPort, .fPort] :=
    (List.reverse_perm statusOwners).symm
  rw [statusShare_apart.worked_perm hperm]
  simp only [worked, List.foldl_cons, List.foldl_nil, statusShare_eq, withReading_setReadings,
    State.setReadings_readings, setReadings_setReadings, readingsNow]

/-! ### The requests -/

section
variable {s : State} {q : Request}

theorem exec_ident (h : Executes s q 0x01) (ha : q.args = []) :
    exec .ident s = .next (answered s q .ok s.identResults) :=
  h.exec_answers (run := fun _ t => some (.ok, t.identResults, t)) rfl (ha ▸ rfl) rfl

theorem exec_setTime (h : Executes s q 0x08) (hl : q.args.length = 4) :
    exec .setTime s = .next (answered { s with timebase := read4 q.args 0 } q .ok []) :=
  h.exec_answers (run := fun args t => some (.ok, [], { t with timebase := read4 args 0 })) rfl
    (decide_eq_true hl) rfl

section
variable (h : Executes s q 0x06) (ha : q.args = [])
include h ha

theorem exec_readStatus_share (hleft : ∃ b, takesPart 0x06 b ∧ b ∉ s.management.shares.taken) :
    ∃ b, takesPart 0x06 b ∧ b ∉ s.management.shares.taken
      ∧ exec .readStatus s = .next (shareTaken { s with management := { s.management with
          shares := { s.management.shares with
            readings := withReading s b s.management.shares.readings } } } b) := by
  have hp := takesPart_status_iff (.inl rfl : 6 = 6 ∨ 6 = 7)
  obtain ⟨b, hb, hnot, hstep⟩ := h.gather_share (ha ▸ rfl) State.statusShare
    (fun t => (.ok, t.management.shares.readings.results, t)) (outstanding_ne_nil hp hleft)
  rw [State.takeShare, statusShare_eq] at hstep
  exact ⟨b, (hp b).mpr hb, hnot, hstep⟩

theorem exec_readStatus_answers (hall : ∀ b, takesPart 0x06 b → b ∈ s.management.shares.taken) :
    exec .readStatus s = .next (answered s q .ok (statusBytes s.management.shares.readings)) := by
  rw [← results_eq_statusBytes]
  exact h.gather_answers (ha ▸ rfl) State.statusShare
    (fun t => (.ok, t.management.shares.readings.results, t))
    (outstanding_eq_nil (takesPart_status_iff (.inl rfl)) hall)

theorem run_readStatus (hnone : s.management.shares.taken = []) :
    runAll (List.replicate 7 .readStatus) s = .next (answered { s with choices := s.choices + 6 } q .ok
      (statusBytes (readingsNow s s.management.shares.readings))) := by
  obtain ⟨_, bs, rfl, hlen, hrun⟩ := statusShare_apart.run h (ha ▸ rfl) hnone (by decide : statusOwners.Nodup)
    (c := .readStatus) (fun _ => rfl)
  have hlen : bs.length = 6 := hlen
  refine hrun.trans (congrArg Host.Outcome.next ?_)
  rw [worked_statusShare, answered_noted, hlen, results_eq_statusBytes]
  exact answered_setShares { s with choices := s.choices + 6 } _ q .ok _

end

section
variable (h : Executes s q 0x07) (ha : q.args = [])
include h ha

theorem exec_clearCounters_share (hleft : ∃ b, takesPart 0x07 b ∧ b ∉ s.management.shares.taken) :
    ∃ b, takesPart 0x07 b ∧ b ∉ s.management.shares.taken
      ∧ exec .clearCounters s = .next (shareTaken (s.clearShare b) b) := by
  have hp := takesPart_status_iff (.inr rfl : 7 = 6 ∨ 7 = 7)
  obtain ⟨b, hb, hnot, hstep⟩ := h.gather_share (ha ▸ rfl) State.clearShare (fun t => (.ok, [], t))
    (outstanding_ne_nil hp hleft)
  refine ⟨b, (hp b).mpr hb, hnot, hstep.trans ?_⟩
  cases b <;> rfl

theorem exec_clearCounters_answers (hall : ∀ b, takesPart 0x07 b → b ∈ s.management.shares.taken) :
    exec .clearCounters s = .next (answered s q .ok []) :=
  h.gather_answers (ha ▸ rfl) State.clearShare (fun t => (.ok, [], t))
    (outstanding_eq_nil (takesPart_status_iff (.inr rfl)) hall)

theorem run_clearCounters (hnone : s.management.shares.taken = []) :
    runAll (List.replicate 7 .clearCounters) s = .next (answered
      { worked State.clearShare s statusOwners with choices := s.choices + 6 } q .ok []) := by
  obtain ⟨_, bs, rfl, hlen, hrun⟩ := clearShare_apart.run h (ha ▸ rfl) hnone (by decide : statusOwners.Nodup)
    (c := .clearCounters) (fun _ => rfl)
  have hlen : bs.length = 6 := hlen
  refine hrun.trans (congrArg Host.Outcome.next ?_)
  rw [answered_noted, hlen]
  rfl

end

end

/-- Settles O50: one command is one block's share or the answer, and the six shares run together leave the
same part in whatever order they are taken. -/
theorem identityStatusCountersAndTime : Obligations.IdentityStatusCountersAndTime := by
  refine fun s q => ⟨fun h ha => exec_ident h ha, fun h ha => ?_, fun h ha => ?_, fun b₀ b₁ b₂ b₃ h ha => ?_⟩
  · exact ⟨exec_readStatus_share h ha, exec_readStatus_answers h ha, run_readStatus h ha⟩
  · refine ⟨fun hleft => ?_, exec_clearCounters_answers h ha, fun hnone => ?_⟩
    · obtain ⟨b, hb, hnot, hstep⟩ := exec_clearCounters_share h ha hleft
      exact ⟨b, _, hb, hnot, countsCleared_clearShare s b, hstep⟩
    · exact ⟨_, run_clearCounters h ha hnone, fun n => Table.get_map _ _ n, rfl⟩
  · rw [exec_setTime h (ha ▸ rfl), ha]
    rfl

end Sys2Proof

/-! ## READ_ENTRY (O51) -/

namespace Sys2Proof

open Sys2Proof.Machine

/-! ### What stands at a position of a record (10 opening, section 10.5)

A record's bytes are read off its definition: where the bytes at a position are those of a value, the
layout's clause about that value holds. -/

section
variable {bs : List Byte} {i : Nat}

theorem byteOf_toNat (n : Nat) : (byteOf n).toNat = n % 256 := BitVec.toNat_ofNat n 8

theorem atByte_of {n : Nat} (h : bs.getD i 0 = byteOf n) : AtByte bs i n := by
  rw [AtByte, byteAt, h, byteOf_toNat]

theorem atFlag_of {b : Bool} (h : bs.getD i 0 = boolByte b) : AtFlag bs i b := by
  rw [AtFlag, byteAt, h]
  cases b <;> rfl

theorem atIndex_of {n : Nat} {x : Option (Fin n)} (h : bs.getD i 0 = indexByte x) : AtIndex bs i x := by
  cases x with
  | none => exact congrArg BitVec.toNat h
  | some j => exact atByte_of h

theorem atTrigger_of {t : Trigger} (h : bs.getD i 0 = byteOf t.code) : AtTrigger bs i t := by
  cases t with
  | manual => exact atByte_of h
  | rule k => exact (atByte_of h).trans (Nat.mod_eq_of_lt (k.isLt.trans (by decide)))

theorem byteAt_of_slice {xs : List Byte} {m k : Nat} (h : (bs.drop i).take m = xs) (hk : k < m) :
    byteAt bs (i + k) = byteAt xs k := by
  have hget : (bs.drop i)[k]? = xs[k]? := by rw [← List.getElem?_take_of_lt hk, h]
  rw [List.getElem?_drop] at hget
  simp only [byteAt, List.getD_eq_getElem?_getD, hget]

theorem allZero_of {j : Nat} (h : (bs.drop i).take (j - i) = List.replicate (j - i) 0) :
    AllZero bs i j := by
  intro o hi hj
  have hbyte := byteAt_of_slice h (k := o - i) (by omega)
  rw [Nat.add_sub_cancel' hi] at hbyte
  rw [hbyte, byteAt, List.getD_replicate _ (show o - i < j - i by omega)]
  rfl

theorem at2_of {n : Nat} (h : (bs.drop i).take 2 = bytes2 n) : At2 bs i n := by
  have h₀ : byteAt bs i = (byteOf (n / 256)).toNat := byteAt_of_slice h (k := 0) (by decide)
  have h₁ : byteAt bs (i + 1) = (byteOf n).toNat := byteAt_of_slice h (k := 1) (by decide)
  simp only [At2, read2, h₀, h₁, byteOf_toNat]
  omega

theorem at4_of {n : Nat} (h : (bs.drop i).take 4 = bytes4 n) : At4 bs i n := by
  have h₀ : byteAt bs i = (byteOf (n / 16777216)).toNat := byteAt_of_slice h (k := 0) (by decide)
  have h₁ : byteAt bs (i + 1) = (byteOf (n / 65536)).toNat := byteAt_of_slice h (k := 1) (by decide)
  have h₂ : byteAt bs (i + 2) = (byteOf (n / 256)).toNat := byteAt_of_slice h (k := 2) (by decide)
  have h₃ : byteAt bs (i + 3) = (byteOf n).toNat := byteAt_of_slice h (k := 3) (by decide)
  simp only [At4, read4, read3, read2, h₀, h₁, h₂, h₃, byteOf_toNat]
  omega

theorem atSigned_of {v : Int} (h : (bs.drop i).take 4 = signed4 v) : AtSigned bs i v := by
  have h₄ : read4 bs i = (v % 4294967296).toNat % 4294967296 := at4_of h
  rw [AtSigned, h₄]
  omega

/-- An optional value in a record: its presence byte, then the value, 0 when absent. -/
def optionalBytes (x : Option Int) : List Byte := byteOf (if x = none then 0 else 1) :: signed4 (x.getD 0)

theorem atOptional_of {x : Option Int} (h : (bs.drop i).take 5 = optionalBytes x) : AtOptional bs i x := by
  refine ⟨atByte_of ?_, atSigned_of ?_⟩
  · rw [List.getD_eq_getElem?_getD, ← Nat.add_zero i, ← List.getElem?_drop,
      ← List.getElem?_take_of_lt (show 0 < 5 by decide), h]
    rfl
  · have hdrop := congrArg (List.drop 1) h
    rw [List.drop_take, List.drop_drop] at hdrop
    exact hdrop

end

theorem byteOf_congr {m n : Nat} (h : m % 256 = n % 256) : byteOf m = byteOf n :=
  BitVec.eq_of_toNat_eq (by rw [byteOf_toNat, byteOf_toNat, h])

theorem signed4_natCast (n : Nat) : signed4 (n : Int) = bytes4 n := by
  have hmod : ((n : Int) % 4294967296).toNat = n % 4294967296 := by omega
  rw [signed4, hmod, bytes4, bytes4, byteOf_congr (m := n % 4294967296 / 16777216) (n := n / 16777216) (by omega),
    byteOf_congr (m := n % 4294967296 / 65536) (n := n / 65536) (by omega),
    byteOf_congr (m := n % 4294967296 / 256) (n := n / 256) (by omega),
    byteOf_congr (m := n % 4294967296) (n := n) (by omega)]

theorem optional4_signed (x : Option Int) : optional4 (x.map signed4) = optionalBytes x := by
  cases x <;> rfl

theorem optional4_unsigned (x : Option Nat) : optional4 (x.map bytes4) = optionalBytes (x.map Int.ofNat) := by
  cases x with
  | none => rfl
  | some n => exact congrArg (List.cons 1) (signed4_natCast n).symm

/-! ### The records (section 10.5) -/

theorem channelLayout_entryRecord (x : Channel) : ChannelLayout x x.entryRecord := by
  rw [Channel.entryRecord, optional4_signed]
  exact ⟨rfl, atFlag_of rfl, atByte_of rfl, atByte_of rfl, atByte_of rfl, atByte_of rfl, atByte_of rfl,
    at4_of rfl, atOptional_of rfl, at2_of rfl⟩

theorem nodeLayout_entryRecord (x : NodeEntry) : NodeLayout x x.entryRecord :=
  ⟨rfl, atByte_of rfl, at2_of rfl, at4_of rfl, at4_of rfl, at4_of rfl, at4_of rfl⟩

theorem slotLayout_entryRecord (x : Slot) : SlotLayout x x.entryRecord :=
  ⟨rfl, atFlag_of rfl, atByte_of rfl, atByte_of rfl, atByte_of rfl, atByte_of rfl, atFlag_of rfl,
    atFlag_of rfl, atByte_of rfl, atByte_of rfl, at4_of rfl, at4_of rfl⟩

theorem ruleLayout_entryRecord (x : Rule) : RuleLayout x x.entryRecord := by
  rw [Rule.entryRecord, optional4_signed, optional4_unsigned]
  exact ⟨rfl, atFlag_of rfl, ⟨atByte_of rfl, atByte_of rfl⟩, atByte_of rfl, atByte_of rfl, atSigned_of rfl,
    atSigned_of rfl, at4_of rfl, atByte_of rfl, atFlag_of rfl, atFlag_of rfl, atIndex_of rfl, atIndex_of rfl,
    atByte_of rfl, atByte_of rfl, atOptional_of rfl, at4_of rfl, atOptional_of rfl⟩

theorem globalLayout_entryRecord (x : Global) : GlobalLayout x x.entryRecord :=
  ⟨rfl, atByte_of rfl, atByte_of rfl, atByte_of rfl, atByte_of rfl, atByte_of rfl, atByte_of rfl,
    atByte_of rfl⟩

/-! #### RING, with the group of its mode (R73, R81) -/

/-- The 24 bytes of a RING record before the groups of the two modes. -/
def ringHead (r : Ring) : List Byte :=
  [boolByte r.enabled] ++ bytes2 r.base ++ bytes4 r.length
    ++ [byteOf r.mode.code, byteOf r.sourceKind.code, byteOf r.sourceIndex.val, byteOf r.overflow.code]
    ++ bytes4 r.postCount ++ [boolByte r.notify] ++ bytes4 r.dropped ++ bytes4 r.lost

theorem ringRecord_stream {r : Ring} (h : r.mode = .stream) :
    r.entryRecord = ringHead r ++ (r.stream.bytes ++ List.replicate 34 0) := by
  simp only [Ring.entryRecord, h, ringHead]

theorem ringRecord_snapshot {r : Ring} (h : r.mode = .snapshot) :
    r.entryRecord = ringHead r ++ (List.replicate 10 0 ++ r.snapshot.bytes) := by
  simp only [Ring.entryRecord, h, ringHead]

/-- The bytes of a SNAPSHOT group before its two optional parts. -/
def snapshotHead (x : SnapshotState) : List Byte :=
  [byteOf x.state.code] ++ bytes2 x.position ++ bytes4 x.valid ++ bytes4 x.remaining ++ [boolByte x.gapped]

/-- The bytes of a pending trigger, 0 when absent. -/
def pendingBytes : Option PendingTrigger → List Byte
  | some p => [1, byteOf p.trigger.code] ++ bytes4 p.time
  | none => List.replicate 6 0

/-- The bytes of a capture record, 0 when absent. -/
def recordBytes : Option CaptureRecord → List Byte
  | some c => [1, byteOf c.trigger.code] ++ bytes4 c.triggerTime ++ bytes4 c.freezeTime ++ bytes4 c.valid
      ++ bytes2 c.endPosition
  | none => List.replicate 16 0

theorem snapshotBytes_eq (x : SnapshotState) :
    x.bytes = snapshotHead x ++ pendingBytes x.pending ++ recordBytes x.record := rfl

theorem streamLayout_entryRecord {r : Ring} (h : r.mode = .stream) :
    StreamLayout r.stream r.entryRecord ∧ AllZero r.entryRecord 34 68 := by
  rw [ringRecord_stream h]
  exact ⟨⟨atByte_of rfl, ⟨atByte_of rfl, at2_of rfl, atByte_of rfl⟩,
    ⟨atByte_of rfl, at2_of rfl, atByte_of rfl⟩, atFlag_of rfl⟩, allZero_of rfl⟩

theorem snapshotLayout_entryRecord {r : Ring} (h : r.mode = .snapshot) :
    AllZero r.entryRecord 24 34 ∧ SnapshotLayout r.snapshot r.entryRecord := by
  rw [ringRecord_snapshot h, snapshotBytes_eq]
  refine ⟨allZero_of rfl, atByte_of rfl, at2_of rfl, at4_of rfl, at4_of rfl, atFlag_of rfl,
    fun hp => ?_, fun p hp => ?_, fun hc => ?_, fun c hc => ?_⟩
  · rw [hp]
    exact allZero_of rfl
  · rw [hp]
    exact ⟨rfl, atTrigger_of rfl, at4_of rfl⟩
  · rw [hc]
    cases r.snapshot.pending <;> exact allZero_of rfl
  · rw [hc]
    cases r.snapshot.pending <;>
      exact ⟨rfl, atTrigger_of rfl, at4_of rfl, at4_of rfl, at4_of rfl, at2_of rfl⟩

theorem ringLayout_entryRecord (r : Ring) : RingLayout r r.entryRecord :=
  ⟨ringRecord_length r, atFlag_of rfl, at2_of rfl, at4_of rfl, atByte_of rfl,
    ⟨atByte_of rfl, atByte_of rfl⟩, atByte_of rfl, at4_of rfl, atFlag_of rfl, at4_of rfl, at4_of rfl,
    streamLayout_entryRecord, snapshotLayout_entryRecord⟩

/-! ### The request -/

theorem nodeIndex_of_val {m : Nat} {n : Fin 30} (h : m = n.val + 1) : nodeIndex m = some n := by
  subst h
  exact (if_neg (Nat.succ_ne_zero _)).trans (indexBelow_of_val rfl)

section
variable {s : State} {q : Request} {table index : Byte} (h : Executes s q 0x02) (ha : q.args = [table, index])
include h ha

theorem exec_readEntry {x : TableId} (hx : tableOf table.toNat = some x) {bs : List Byte}
    (hbs : s.entryRecord x index.toNat = some bs) : exec .readEntry s = .next (answered s q .ok bs) := by
  show execReadEntry s = _
  refine h.request_answers _ (ha ▸ rfl) ?_
  have hrecord : ((tableOf (byteAt q.args 0)).bind fun x => s.entryRecord x (byteAt q.args 1)) = some bs := by
    rw [ha]
    exact (congrArg (Option.bind · _) hx).trans hbs
  simp only [hrecord]

theorem exec_readEntry_badValue
    (hx : ∀ x, tableOf table.toNat = some x → s.entryRecord x index.toNat = none) :
    exec .readEntry s = .next (answered s q .badValue []) := by
  show execReadEntry s = _
  refine h.request_answers _ (ha ▸ rfl) ?_
  have hrecord : ((tableOf (byteAt q.args 0)).bind fun x => s.entryRecord x (byteAt q.args 1)) = none := by
    rw [ha]
    exact Option.bind_eq_none_iff.mpr hx
  simp only [hrecord]

end

/-- Settles O51: the table code and the index find the entry, and its record carries each field where section
10.5 places it. -/
theorem readEntryGivesTheRecord : Obligations.ReadEntryGivesTheRecord := by
  intro s q table index h ha
  have found {n : Nat} {x : TableId} (ht : table.toNat = n) (hx : tableOf n = some x) {bs : List Byte}
      (hbs : s.entryRecord x index.toNat = some bs) : exec .readEntry s = .next (answered s q .ok bs) :=
    exec_readEntry h ha (ht ▸ hx) hbs
  have missing {n : Nat} {x : TableId} (ht : table.toNat = n) (hx : tableOf n = some x)
      (hnone : s.entryRecord x index.toNat = none) : exec .readEntry s = .next (answered s q .badValue []) :=
    exec_readEntry_badValue h ha fun y hy => by
      rw [ht, hx] at hy
      exact Option.some.inj hy ▸ hnone
  refine ⟨fun ht => ?_, ?_, fun c ht hi => ?_, fun n ht hi => ?_, fun k ht hi => ?_, fun k ht hi => ?_,
    fun k ht hi => ?_, fun ht hi => ?_⟩
  · exact exec_readEntry_badValue h ha fun x hx => by rw [tableOf_eq_none ht] at hx; cases hx
  · rintro (⟨ht, hi⟩ | ⟨ht, hi⟩ | ⟨ht, hi⟩ | ⟨ht, hi⟩ | ⟨ht, hi⟩ | ⟨ht, hi⟩)
    · exact missing ht rfl (by simp only [State.entryRecord, indexBelow_eq_none hi, Option.map_none])
    · have hi : ¬ (1 ≤ index.toNat ∧ index.toNat ≤ 30) := by omega
      exact missing ht rfl (by simp only [State.entryRecord, nodeIndex_eq_none hi, Option.map_none])
    · exact missing ht rfl (by simp only [State.entryRecord, indexBelow_eq_none hi, Option.map_none])
    · exact missing ht rfl (by simp only [State.entryRecord, indexBelow_eq_none hi, Option.map_none])
    · exact missing ht rfl (by simp only [State.entryRecord, indexBelow_eq_none hi, Option.map_none])
    · exact missing ht rfl (if_neg hi)
  · exact ⟨_, channelLayout_entryRecord _, found ht rfl (by rw [State.entryRecord, indexBelow_of_val hi]; rfl)⟩
  · exact ⟨_, nodeLayout_entryRecord _, found ht rfl (by rw [State.entryRecord, nodeIndex_of_val hi]; rfl)⟩
  · exact ⟨_, slotLayout_entryRecord _, found ht rfl (by rw [State.entryRecord, indexBelow_of_val hi]; rfl)⟩
  · exact ⟨_, ruleLayout_entryRecord _, found ht rfl (by rw [State.entryRecord, indexBelow_of_val hi]; rfl)⟩
  · exact ⟨_, ringLayout_entryRecord _, found ht rfl (by rw [State.entryRecord, indexBelow_of_val hi]; rfl)⟩
  · exact ⟨_, globalLayout_entryRecord _, found ht rfl (if_pos hi)⟩

end Sys2Proof

/-! ## The assembler packs output records (O44) -/

namespace Sys2Proof

open Sys2Proof.Machine

/-! ### A closed frame (R154, R155) -/

theorem keepsPlaces_iff (e : EngineState) :
    e.keepsPlaces = true ↔ ∃ x, e = .sending x ∧ x.lastQueued = false := by
  cases e <;> simp [EngineState.keepsPlaces]

theorem reducedEnters_iff (s : State) : s.reducedEnters = true ↔ s.egress.dt.length < 16
    ∧ ((∃ x, s.readout.engine = .sending x ∧ x.lastQueued = false) → reducedInDt s.egress.dt < 8) := by
  rw [← keepsPlaces_iff]
  simp [State.reducedEnters, Bool.or_eq_true, imp_iff_not_or]

/-- A frame that closes is placed in DT or dropped with its records counted, and in either case leaves no
open frame and no running hold timer. -/
theorem closeReduced_eq (s : State) (records : List OutputRecord) : s.closeReduced records = { s with
    egress := if s.reducedEnters = true then
        { s.egress with dt := s.egress.dt ++ [.reduced records], openFrame := [], holdTimer := .stopped }
      else
        { s.egress with reducedDropped := min (s.egress.reducedDropped + records.length) 4294967295
                        openFrame := [], holdTimer := .stopped } } := by
  rcases s.closeReduced_cases records with ⟨henters, h⟩ | ⟨henters, h⟩
  · rw [h, if_pos henters]
  · rw [h, if_neg (Bool.eq_false_iff.mp henters)]
    rfl

/-! ### One record (R153, R160) -/

section
variable {s : State} {r : OutputRecord}

theorem assemble_of_held (h : s.egress.held = true) : s.assemble r = { s with egress :=
    { s.egress with reducedDropped := min (s.egress.reducedDropped + 1) 4294967295 } } :=
  if_pos h

theorem assemble_opens (hheld : s.egress.held = false) (hopen : s.egress.openFrame = []) :
    s.assemble r = { s with egress := { s.egress with
      openFrame := [r], holdTimer := .running (s.management.global.reducedHold * 1000) } } := by
  simp [State.assemble, hheld, hopen, startTimer]

theorem assemble_joins (hheld : s.egress.held = false) (hopen : s.egress.openFrame ≠ [])
    (hroom : s.egress.openFrame.length ≤ 10) :
    s.assemble r = { s with egress := { s.egress with openFrame := s.egress.openFrame ++ [r] } } := by
  have hnotFull : ¬ 12 ≤ s.egress.openFrame.length + 1 := by omega
  simp [State.assemble, hheld, hopen, hnotFull]

theorem assemble_closes (hheld : s.egress.held = false) (hfull : s.egress.openFrame.length = 11) :
    s.assemble r = s.closeReduced (s.egress.openFrame ++ [r]) := by
  simp [State.assemble, hheld, hfull]

/-- The assembler takes the oldest record of a slot, past the records of other slots. -/
theorem exec_assemblerTakeRecord {before after : List OutputRecord}
    (hrecords : s.egress.records = before ++ r :: after) (hfirst : ∀ x ∈ before, x.slot ≠ r.slot) :
    exec (.assemblerTakeRecord r.slot) s
      = .next ({ s with egress := { s.egress with records := before ++ after } }.assemble r) := by
  have htake : takeFirst (fun x => decide (x.slot = r.slot)) s.egress.records
      = some (r, before ++ after) :=
    hrecords ▸ takeFirst_append before after r (decide_eq_true rfl) fun x hx =>
      decide_eq_false (hfirst x hx)
  simp only [exec, execAssemblerTakeRecord, htake]

theorem exec_reducedHoldExpiry (hdue : s.egress.holdTimer = .running 0)
    (hopen : s.egress.openFrame ≠ []) :
    exec .reducedHoldExpiry s = .next (s.closeReduced s.egress.openFrame) :=
  if_pos ⟨by rw [hdue]; rfl, hopen⟩

end

/-- Settles O44: what the assembler does with a record depends on the records that its open frame holds, and
a frame that closes enters DT or is dropped, whether its twelfth record or the hold timer closes it. -/
theorem assemblerPacksRecords : Obligations.AssemblerPacksRecords := by
  intro s s₀ enters closes henters hcloses
  have closes_eq {z : State} (records : List OutputRecord) (hdt : z.egress.dt = s.egress.dt)
      (hdropped : z.egress.reducedDropped = s.egress.reducedDropped) (hreadout : z.readout = s.readout) :
      z.closeReduced records = closes z records := by
    have hz : z.reducedEnters = enters := by
      rw [Bool.eq_iff_iff, henters, reducedEnters_iff, hdt, hreadout]
    rw [closeReduced_eq, hcloses, hz, hdt, hdropped]
  refine ⟨?_, fun hdue hopen => ?_⟩
  · rintro r before after hrecords hfirst rfl
    rw [exec_assemblerTakeRecord hrecords hfirst]
    refine ⟨fun hheld => ?_, fun hheld hopen => ?_, fun hheld hopen hroom => ?_, fun hheld hfull => ?_⟩
    · exact congrArg Host.Outcome.next (assemble_of_held hheld)
    · exact congrArg Host.Outcome.next (assemble_opens hheld hopen)
    · exact congrArg Host.Outcome.next (assemble_joins hheld hopen hroom)
    · refine congrArg Host.Outcome.next (Eq.trans ?_ (closes_eq _ rfl rfl rfl))
      exact assemble_closes hheld hfull
  · rw [exec_reducedHoldExpiry hdue hopen, closes_eq _ rfl rfl rfl]

end Sys2Proof

/-! ## Frames enter FW and leave OB (O22) -/

namespace Sys2Proof

open Sys2Proof.Machine

/-! ### FW (R150, R151, R152, R160) -/

section
variable {s : State} {bytes : List Byte}

theorem offerFw_of_held (h : s.egress.held = true) : s.offerFw bytes = { s with egress :=
    { s.egress with downDiscards := min (s.egress.downDiscards + 1) 4294967295 } } :=
  if_pos h

theorem offerFw_of_room (hheld : s.egress.held = false) (hroom : s.egress.fw.length < 32) :
    s.offerFw bytes = { s with
      egress := { s.egress with fw := s.egress.fw ++ [bytes] }
      fPort := { s.fPort with
        occupancy := s.fPort.occupancy ++ [.joined (s.egress.fw.length + 1)] } } :=
  (if_neg (Bool.eq_false_iff.mp hheld)).trans (if_pos hroom)

theorem offerFw_of_full (hheld : s.egress.held = false) (hfull : 32 ≤ s.egress.fw.length) :
    s.offerFw bytes = { s with egress :=
      { s.egress with fwDrops := min (s.egress.fwDrops + 1) 4294967295 } } :=
  (if_neg (Bool.eq_false_iff.mp hheld)).trans (if_neg (Nat.not_lt.mpr hfull))

theorem exec_fwPlace_candidate {c : SampleFrame} {cs : List SampleFrame}
    (h : s.egress.candidates = c :: cs) : exec (.fwPlace .candidate) s
      = .next ({ s with egress := { s.egress with candidates := cs } }.offerFw c.rebuild) := by
  simp only [exec, execFwPlace, h]

theorem exec_fwPlace_other {fs : List (List Byte)} (hcandidates : s.egress.candidates = [])
    (hothers : s.egress.others = bytes :: fs) : exec (.fwPlace .other) s
      = .next ({ s with egress := { s.egress with others := fs } }.offerFw bytes) := by
  simp only [exec, execFwPlace, hothers, if_pos hcandidates]

/-- A frame of another kind waits behind the candidates that were handed on before it (R150). -/
theorem exec_fwPlace_other_waits (h : s.egress.candidates ≠ []) : exec (.fwPlace .other) s = .next s := by
  simp only [exec, execFwPlace, if_neg h]
  split <;> rfl

/-! ### OB (R163, R170, R173) -/

theorem exec_obSend {rest : List (List Byte)} (hup : s.fPort.link = .up)
    (hidle : s.fPort.sending = none) (hpaused : s.fPort.paused = false) (hlosses : s.egress.fLosses = 0)
    (hob : s.egress.ob = bytes :: rest) : exec .obSend s = .next { s with
      egress := { s.egress with ob := rest }
      cPort := { s.cPort with occupancy := s.cPort.occupancy ++ [.removed rest.length] }
      fPort := s.fPort.beginFrame bytes } := by
  have hsend : exec .obSend s = _ := if_pos ⟨hup, hidle, hpaused, hlosses⟩
  rw [hsend, hob]
  rfl

theorem exec_fPortLeavingUpEgress {n : Nat} (h : s.egress.fLosses = n + 1) :
    exec .fPortLeavingUpEgress s = .next { s with
      egress := { s.egress with ob := [], fLosses := n }
      cPort := { s.cPort with occupancy := s.cPort.occupancy ++ [.removed 0] } } := by
  simp only [exec, execFPortLeavingUpEgress, h, Nat.add_one_ne_zero, if_false, Nat.add_sub_cancel]
  rfl

end

/-- Settles O22: the way brings a frame to the scheduler, and the link and the room in FW say what becomes of
it; OB gives up its oldest frame, or all of them at the loss of the F-port. -/
theorem framesEnterAndLeaveTheQueues : Obligations.FramesEnterAndLeaveTheQueues := by
  refine ⟨⟨fun s frame rest => exec_obSend, fun s n => exec_fPortLeavingUpEgress⟩,
    fun way s s₀ frame hway => ?_, fun s => exec_fwPlace_other_waits⟩
  have hplace : exec (.fwPlace way) s = .next (s₀.offerFw frame) ∧ s₀.egress.held = s.egress.held
      ∧ s₀.egress.fw = s.egress.fw ∧ s₀.egress.downDiscards = s.egress.downDiscards
      ∧ s₀.egress.fwDrops = s.egress.fwDrops ∧ s₀.fPort = s.fPort := by
    rcases hway with ⟨rfl, c, cs, hcandidates, rfl, rfl⟩ | ⟨rfl, hnone, fs, hothers, rfl⟩
    · exact ⟨exec_fwPlace_candidate hcandidates, rfl, rfl, rfl, rfl, rfl⟩
    · exact ⟨exec_fwPlace_other hnone hothers, rfl, rfl, rfl, rfl, rfl⟩
  obtain ⟨hexec, hheld, hfw, hdiscards, hdrops, hport⟩ := hplace
  rw [hexec, ← hheld, ← hfw, ← hdiscards, ← hdrops, ← hport]
  refine ⟨fun hheld => ?_, fun hheld hroom => ?_, fun hheld hfull => ?_⟩
  · rw [offerFw_of_held hheld]
  · rw [offerFw_of_room hheld hroom]
  · rw [offerFw_of_full hheld hfull]

end Sys2Proof

/-! ## SAMPLE frames read and rebuilt (O28) -/

namespace Sys2Proof

open Sys2Proof.Machine

/-! ### Bytes read and written again (chapter 10 opening) -/

section
variable {bs : List Byte} {i n : Nat}

theorem byteOf_of_atByte (h : AtByte bs i n) : byteOf n = bs.getD i 0 :=
  BitVec.eq_of_toNat_eq ((byteOf_toNat n).trans h.symm)

theorem byteOf_byteAt (bs : List Byte) (i : Nat) : byteOf (byteAt bs i) = bs.getD i 0 :=
  byteOf_of_atByte (Nat.mod_eq_of_lt (byteAt_lt bs i)).symm

theorem bytes2_read2 (bs : List Byte) (i : Nat) :
    bytes2 (read2 bs i) = [bs.getD i 0, bs.getD (i + 1) 0] := by
  have h₀ := byteAt_lt bs i
  have h₁ := byteAt_lt bs (i + 1)
  rw [bytes2, read2, byteOf_of_atByte (bs := bs) (i := i) (by rw [AtByte]; omega),
    byteOf_of_atByte (bs := bs) (i := i + 1) (by rw [AtByte]; omega)]

theorem bytes3_read3 (bs : List Byte) (i : Nat) :
    bytes3 (read3 bs i) = [bs.getD i 0, bs.getD (i + 1) 0, bs.getD (i + 2) 0] := by
  have hread : read3 bs i = read2 bs i * 256 + byteAt bs (i + 2) := rfl
  have hlast := byteAt_lt bs (i + 2)
  have hhigh : read3 bs i / 256 = read2 bs i := by omega
  have hfirst : read3 bs i / 65536 = read2 bs i / 256 := by omega
  have hbytes2 := bytes2_read2 bs i
  rw [bytes2, ← hfirst, ← hhigh, List.cons.injEq, List.cons.injEq] at hbytes2
  obtain ⟨h₀, h₁, -⟩ := hbytes2
  rw [bytes3, h₀, h₁, byteOf_of_atByte (bs := bs) (i := i + 2) (by rw [AtByte]; omega)]

theorem read3_of (hn : n < 16777216) (h : (bs.drop i).take 3 = bytes3 n) : read3 bs i = n := by
  have h₀ : byteAt bs i = (byteOf (n / 65536)).toNat := byteAt_of_slice h (k := 0) (by decide)
  have h₁ : byteAt bs (i + 1) = (byteOf (n / 256)).toNat := byteAt_of_slice h (k := 1) (by decide)
  have h₂ : byteAt bs (i + 2) = (byteOf n).toNat := byteAt_of_slice h (k := 2) (by decide)
  simp only [read3, read2, h₀, h₁, h₂, byteOf_toNat]
  omega

theorem drop_eq_getD_cons (h : i < bs.length) : bs.drop i = bs.getD i 0 :: bs.drop (i + 1) := by
  rw [List.drop_eq_getElem_cons h, List.getD_eq_getElem bs 0 h]

end

/-! ### A frame around a payload (section 10.1) -/

/-- The frame of a payload with the three bytes of a header that say its kind and flags, destination and
source. -/
def frameAround (head dest source : Byte) (payload : List Byte) : List Byte :=
  withCrc ([head, dest, source, byteOf payload.length] ++ payload)

section
variable {bs payload : List Byte} {head dest source : Byte}

theorem withCrc_length (bs : List Byte) : (withCrc bs).length = bs.length + 2 := List.length_append

theorem frameAround_length :
    (frameAround head dest source payload).length = payload.length + 6 :=
  withCrc_length _

theorem crcGood_withCrc (bs : List Byte) : crcGood (withCrc bs) = true := by
  have hread : read2 (withCrc bs) bs.length = (crc16 bs).toNat % 65536 :=
    at2_of (by rw [withCrc, List.drop_left]; rfl)
  have hbody : (withCrc bs).take bs.length = bs := List.take_left
  rw [crcGood, withCrc_length, Nat.add_sub_cancel, hbody, hread, Nat.mod_eq_of_lt (crc16 bs).isLt,
    BitVec.ofNat_toNat, BitVec.setWidth_eq, beq_self_eq_true]

/-- Bytes whose last two are the CRC of those before them are closed by their CRC. -/
theorem withCrc_of_crcGood (hcrc : crcGood bs = true) (hlong : 2 ≤ bs.length) :
    withCrc (bs.take (bs.length - 2)) = bs := by
  have hcrc : crc16 (bs.take (bs.length - 2)) = BitVec.ofNat 16 (read2 bs (bs.length - 2)) :=
    eq_of_beq hcrc
  have hlast : bs.drop (bs.length - 2)
      = [bs.getD (bs.length - 2) 0, bs.getD (bs.length - 2 + 1) 0] := by
    rw [drop_eq_getD_cons (by omega), drop_eq_getD_cons (by omega), List.drop_of_length_le (by omega)]
  rw [withCrc, hcrc, BitVec.toNat_ofNat, Nat.mod_eq_of_lt (read2_lt _ _), bytes2_read2, ← hlast,
    List.take_append_drop]

theorem framePayload_frameAround : framePayload (frameAround head dest source payload) = payload := by
  rw [framePayload, frameAround_length, Nat.add_sub_cancel]
  exact List.take_left

theorem lengthGood_frameAround (h : payload.length ≤ 252) :
    lengthGood (frameAround head dest source payload) = true := by
  have hbyte : byteAt (frameAround head dest source payload) 3 = payload.length % 256 := atByte_of rfl
  simp only [lengthGood, frameAround_length, hbyte, Bool.and_eq_true, decide_eq_true_eq]
  omega

/-- A frame that passes the CRC and the length check is the frame of its payload. -/
theorem frameAround_framePayload (hcrc : crcGood bs = true) (hlength : lengthGood bs = true) :
    frameAround (bs.getD 0 0) (bs.getD 1 0) (bs.getD 2 0) (framePayload bs) = bs := by
  simp only [lengthGood, Bool.and_eq_true, decide_eq_true_eq] at hlength
  obtain ⟨⟨hlong, -⟩, hpayload⟩ := hlength
  have hlen : (framePayload bs).length = byteAt bs 3 := by
    rw [framePayload, List.length_take, List.length_drop]
    omega
  have hsplit : bs = [bs.getD 0 0, bs.getD 1 0, bs.getD 2 0, bs.getD 3 0] ++ bs.drop 4 := calc
    bs = bs.drop 0 := rfl
    _ = _ := by
      rw [drop_eq_getD_cons (by omega), drop_eq_getD_cons (by omega), drop_eq_getD_cons (by omega),
        drop_eq_getD_cons (by omega)]
      rfl
  have hbody : [bs.getD 0 0, bs.getD 1 0, bs.getD 2 0, bs.getD 3 0] ++ framePayload bs
      = bs.take (bs.length - 2) := calc
    _ = ([bs.getD 0 0, bs.getD 1 0, bs.getD 2 0, bs.getD 3 0] ++ bs.drop 4).take (bs.length - 6 + 4) := rfl
    _ = bs.take (bs.length - 2) := by rw [← hsplit, show bs.length - 6 + 4 = bs.length - 2 by omega]
  rw [frameAround, hlen, byteOf_byteAt, hbody, withCrc_of_crcGood hcrc (by omega)]

end

/-! ### The payload of a SAMPLE frame (section 10.2) -/

/-- The payload of a SAMPLE frame: its sequence, its count and its entries. -/
def samplePayload (seq : Nat) (es : List SampleEntry) : List Byte :=
  bytes2 seq ++ [byteOf es.length] ++ es.flatMap SampleEntry.bytes

theorem samplePayload_length (seq : Nat) (es : List SampleEntry) :
    (samplePayload seq es).length = 3 + 4 * es.length := by
  have hentries : (es.flatMap SampleEntry.bytes).length = 4 * es.length := by
    induction es with
    | nil => rfl
    | cons e es ih =>
      have hentry : e.bytes.length = 4 := rfl
      rw [List.flatMap_cons, List.length_append, ih, hentry, List.length_cons]
      omega
  rw [samplePayload, List.length_append, hentries]
  rfl

theorem rebuild_eq (f : SampleFrame) :
    f.rebuild = frameAround f.head f.dest f.source (samplePayload f.seq f.entries) := by
  rw [frameAround, samplePayload_length]
  simp only [SampleFrame.rebuild, samplePayload, List.append_assoc]

/-- Entries that fit their fields are read where they stand at the end of a payload. -/
theorem sampleEntries_of_drop {payload : List Byte} {es : List SampleEntry} {i : Nat}
    (hfits : ∀ e ∈ es, e.input < 256 ∧ e.code < 16777216)
    (h : payload.drop i = es.flatMap SampleEntry.bytes) : sampleEntries payload es.length i = es := by
  induction es generalizing i with
  | nil => rfl
  | cons e es ih =>
    obtain ⟨⟨hinput, hcode⟩, hfits⟩ := List.forall_mem_cons.mp hfits
    have hentry : (payload.drop i).take 4 = e.bytes := by rw [h]; rfl
    have hread_input : byteAt payload i = e.input :=
      (byteAt_of_slice hentry (k := 0) (by decide)).trans
        ((byteOf_toNat _).trans (Nat.mod_eq_of_lt hinput))
    have hread_code : read3 payload (i + 1) = e.code :=
      read3_of hcode (by rw [← List.drop_drop, h]; rfl)
    have hrest : payload.drop (i + 4) = es.flatMap SampleEntry.bytes := by
      rw [← List.drop_drop, h]
      rfl
    rw [List.length_cons, sampleEntries, hread_input, hread_code, ih hfits hrest]

/-- The entries read from a position to the end of a payload have the bytes that stand there. -/
theorem flatMap_sampleEntries {payload : List Byte} {k i : Nat} (h : payload.length = i + 4 * k) :
    (sampleEntries payload k i).flatMap SampleEntry.bytes = payload.drop i := by
  induction k generalizing i with
  | zero => exact (List.drop_of_length_le (Nat.le_of_eq h)).symm
  | succ k ih =>
    rw [sampleEntries, List.flatMap_cons, ih (by omega), SampleEntry.bytes, byteOf_byteAt, bytes3_read3,
      drop_eq_getD_cons (i := i) (by omega), drop_eq_getD_cons (i := i + 1) (by omega),
      drop_eq_getD_cons (i := i + 2) (by omega), drop_eq_getD_cons (i := i + 3) (by omega)]
    rfl

/-- A payload whose length agrees with its count is the payload of what is read from it. -/
theorem samplePayload_read {payload : List Byte} (h : payload.length = 3 + 4 * byteAt payload 2) :
    samplePayload (read2 payload 0) (sampleEntries payload (byteAt payload 2) 3) = payload := by
  rw [samplePayload, bytes2_read2, sampleEntries_length, byteOf_byteAt, flatMap_sampleEntries h]
  conv_rhs => rw [← List.drop_zero (l := payload), drop_eq_getD_cons (by omega),
    drop_eq_getD_cons (by omega), drop_eq_getD_cons (by omega)]
  rfl

/-! ### Whole frames -/

theorem rebuild_of_readSampleFrame {bytes : List Byte} {f : SampleFrame} (hcrc : crcGood bytes = true)
    (hlength : lengthGood bytes = true) (h : readSampleFrame bytes = some f) : f.rebuild = bytes := by
  simp only [readSampleFrame, Option.ite_none_right_eq_some, Option.some.injEq] at h
  obtain ⟨⟨-, -, hpayload⟩, rfl⟩ := h
  rw [rebuild_eq, samplePayload_read hpayload, frameAround_framePayload hcrc hlength]

theorem readSampleFrame_rebuild {f : SampleFrame} (hseq : f.seq < 65536) (hsome : 1 ≤ f.entries.length)
    (hmost : f.entries.length ≤ 32) (hfits : ∀ e ∈ f.entries, e.input < 256 ∧ e.code < 16777216) :
    readSampleFrame f.rebuild = some f := by
  have hcount : byteAt (samplePayload f.seq f.entries) 2 = f.entries.length :=
    (atByte_of rfl).trans (Nat.mod_eq_of_lt (by omega))
  have hread_seq : read2 (samplePayload f.seq f.entries) 0 = f.seq :=
    (at2_of rfl).trans (Nat.mod_eq_of_lt hseq)
  have hentries : sampleEntries (samplePayload f.seq f.entries) f.entries.length 3 = f.entries :=
    sampleEntries_of_drop hfits rfl
  rw [rebuild_eq, readSampleFrame]
  simp only [framePayload_frameAround, hcount, samplePayload_length, hread_seq, hentries]
  exact if_pos ⟨hsome, hmost, trivial⟩

/-- Settles O28: a SAMPLE frame is the frame around its payload, and a payload and its entries are read and
written byte for byte. -/
theorem sampleFramesRoundTrip : Obligations.SampleFramesRoundTrip := by
  refine ⟨fun bytes f => rebuild_of_readSampleFrame, fun f hseq hsome hmost hfits => ?_⟩
  have hlen := samplePayload_length f.seq f.entries
  refine ⟨readSampleFrame_rebuild hseq hsome hmost hfits, crcGood_withCrc _, ?_, ?_⟩
  · rw [rebuild_eq]
    exact lengthGood_frameAround (by omega)
  · rw [rebuild_eq, frameAround_length]
    omega

end Sys2Proof

/-! ## The ports stay sound (O14)

What R164 and R165 say of the ports is about the phase and a few fields of each port. Few commands reach
these; every other command leaves them as they are. -/

namespace Sys2Proof

open Sys2Proof.Machine

/-! ### The part of the state that the invariant looks at -/

/-- A port without its flow control toward the link, its counts and the record of its line. -/
def Machine.Port.training (x : Port) : Port :=
  { x with holdSent := false, framesGood := 0, crcErrors := 0, malformed := 0, flowElapsed := 0,
           occupancy := [], line := [] }

/-- The phase and the ports, as far as the invariant looks at them. -/
structure Ports where
  phase : Phase
  fPort : Port
  cPort : Port

def Machine.State.ports (s : State) : Ports := ⟨s.phase, s.fPort.training, s.cPort.training⟩

theorem PortsSound.of_ports {s t : State} (hs : PortsSound s) (h : t.ports = s.ports) : PortsSound t := by
  obtain ⟨hphase, hf, hc⟩ := Ports.mk.inj h
  have hs : Port.Sound s.fPort.training ∧ Port.Sound s.cPort.training
    ∧ (s.phase = .initialising ↔ s.fPort.training.link = .down)
    ∧ (s.phase = .initialising ↔ s.cPort.training.link = .down) := hs
  rw [← hphase, ← hf, ← hc] at hs
  exact hs

theorem PortsSound.port {s : State} (hs : PortsSound s) (p : PortId) : Port.Sound (s.port p) := by
  obtain ⟨hf, hc, _⟩ := hs
  cases p
  · exact hf
  · exact hc

/-- A port replaced by a sound one, where it does not come to DOWN or leave it. -/
theorem PortsSound.setPort {s : State} {p : PortId} {x : Port} (hs : PortsSound s) (hx : Port.Sound x)
    (hdown : x.link = .down ↔ (s.port p).link = .down) : PortsSound (s.setPort p x) := by
  obtain ⟨hf, hc, hfdown, hcdown⟩ := hs
  cases p
  · exact ⟨hx, hc, hfdown.trans hdown.symm, hcdown⟩
  · exact ⟨hf, hx, hfdown, hcdown.trans hdown.symm⟩

end Sys2Proof

/-! ### Operations that leave that part as it is -/

namespace Sys2Proof.Machine

theorem ports_setPort_of_training {s : State} {p : PortId} {x : Port}
    (h : x.training = (s.port p).training) : (s.setPort p x).ports = s.ports := by
  cases p
  · exact congrArg (Ports.mk s.phase · s.cPort.training) h
  · exact congrArg (Ports.mk s.phase s.fPort.training) h

@[simp] theorem ports_chargeMalformed (s : State) (p : PortId) :
    (s.chargeMalformed p).ports = s.ports :=
  ports_setPort_of_training rfl

@[simp] theorem ports_tellLinkChange (s : State) (p : PortId) (x : LinkChange) :
    (s.tellLinkChange p x).ports = s.ports := by
  rw [State.tellLinkChange_eq]; rfl

theorem training_repeatSymbol (x : Port) (elapsed : Nat) (y : FlowSymbol) :
    ({ x with flowElapsed := elapsed }.sendSymbol y).training = x.training := rfl

theorem training_takeOccupancy (p : PortId) (x : Port) (o : OccupancyChange) :
    (Port.takeOccupancy p x o).training = x.training := by
  rw [Port.takeOccupancy_eq]; rfl

/-! #### Received frames and the queues (R129, R150 to R154, R161, R162) -/

@[simp] theorem ports_placeOb (s : State) (bytes : List Byte) : (s.placeOb bytes).ports = s.ports := by
  rw [placeOb_eq]; rfl

@[simp] theorem ports_arriveRequest (s : State) (payload : List Byte) :
    (s.arriveRequest payload).ports = s.ports := by
  rw [arriveRequest_eq]; rfl

@[simp] theorem ports_handOn (s : State) (p : PortId) (bytes : List Byte) :
    (s.handOn p bytes).ports = s.ports := by
  cases p
  · simp only [State.handOn]; split <;> rfl
  · simp only [State.handOn]; split_ifs <;> simp

@[simp] theorem ports_takeFrame (s : State) (p : PortId) (bytes : List Byte) :
    (s.takeFrame p bytes).ports = s.ports := by
  simp only [State.takeFrame]
  split_ifs
  · exact ports_setPort_of_training rfl
  · simp
  · exact (ports_handOn _ p bytes).trans (ports_setPort_of_training rfl)

@[simp] theorem ports_offerFw (s : State) (bytes : List Byte) : (s.offerFw bytes).ports = s.ports := by
  rcases s.offerFw_cases bytes with ⟨_, h⟩ | ⟨_, _, h⟩ | ⟨_, _, h⟩ <;> rw [h] <;> rfl

@[simp] theorem ports_closeReduced (s : State) (records : List OutputRecord) :
    (s.closeReduced records).ports = s.ports := by
  rcases s.closeReduced_cases records with ⟨_, h⟩ | ⟨_, h⟩ <;> rw [h] <;> rfl

@[simp] theorem ports_assemble (s : State) (r : OutputRecord) : (s.assemble r).ports = s.ports := by
  simp only [State.assemble]
  split_ifs
  · rfl
  · exact ports_closeReduced _ _
  · rfl
  · rfl

@[simp] theorem ports_emptyEgress (s : State) : s.emptyEgress.ports = s.ports := rfl

/-! #### The classifier, the slots, the rules and the rings -/

theorem OnlyOffered.ports {s t : State} (h : OnlyOffered s t) : t.ports = s.ports := by
  rw [h.rest]; rfl

@[simp] theorem ports_takeSampleFrame (s : State) (bytes : List Byte) :
    (s.takeSampleFrame bytes).ports = s.ports := by
  simp only [State.takeSampleFrame]
  split
  · next f n _ _ =>
    split_ifs
    · simp
    · rfl
    · rw [handCandidate_eq]
      exact (processed_onlyOffered s n f).ports
  · simp

@[simp] theorem ports_unseeNodes (s : State) : s.unseeNodes.ports = s.ports := rfl

@[simp] theorem ports_slotTakesSample (s : State) (k : Fin 16) (x : Slot) (v : Int) (i : Nat) :
    (s.slotTakesSample k x v i).ports = s.ports := by
  simp only [State.slotTakesSample, State.deliverOutput]
  split
  · rfl
  · split <;> rfl

@[simp] theorem ports_slotTakesMark (s : State) (k : Fin 16) (x : Slot) :
    (s.slotTakesMark k x).ports = s.ports := by
  simp only [State.slotTakesMark]
  split
  · rfl
  · split <;> rfl

@[simp] theorem ports_ruleTakesValue (s : State) (k : Fin 32) (r : Rule) (v : Int) (i : Nat) :
    (s.ruleTakesValue k r v i).ports = s.ports := by
  have hfreeze : ∀ (u : State) g, (u.sendFreeze k g).ports = u.ports := fun u g => by cases g <;> rfl
  have hstart : ∀ (u : State) j, (u.sendStart j).ports = u.ports := fun u j => by cases j <;> rfl
  simp only [State.ruleTakesValue]
  split
  · split
    · rfl
    · simp only [State.ruleAsserts, hstart, hfreeze]
      split <;> rfl
    · simp only [State.ruleReleases]
      split <;> rfl
  · rfl

@[simp] theorem ports_ringTakesFreeze (s : State) (k : Fin 8) (r : Ring) (t : Trigger) :
    (s.ringTakesFreeze k r t).ports = s.ports := by
  simp only [State.ringTakesFreeze]
  split <;> rfl

/-! #### The readout engine -/

@[simp] theorem ports_placeTerminator (s : State) : s.placeTerminator.ports = s.ports := by
  rcases s.placeTerminator_cases with h | ⟨_, _, _, _, _, h⟩ <;> rw [h]
  rfl

theorem ports_produceOne {s t : State} (h : s.produceOne = some t) : t.ports = s.ports := by
  rcases State.produceOne_cases h with rfl | ⟨_, _, _, _, _, _, rfl⟩ <;> rfl

theorem ports_examineEngine {s t : State} (h : s.examineEngine = some t) : t.ports = s.ports :=
  State.examineEngine_keeps (P := fun u => u.ports = s.ports)
    (fun u hu => (ports_placeTerminator u).trans hu) (fun _ _ hu h => (ports_produceOne h).trans hu) rfl h

theorem ports_engineGranted (s : State) (f : ReadoutFrame) : (s.engineGranted f).ports = s.ports := by
  simp only [State.engineGranted]
  split
  · split <;> rfl
  · split <;> rfl
  · rfl

theorem ports_readoutLinkLost (s : State) : s.readoutLinkLost.ports = s.ports := by
  simp only [State.readoutLinkLost]
  split <;> rfl

theorem ports_abortReadout (s : State) (x : ReadoutRecord) : (s.abortReadout x).ports = s.ports :=
  (ports_placeTerminator _).trans rfl

theorem ports_readRing {s u : State} {k : Fin 8} {part : RingPart} {status : Status}
    {results : List Byte} (h : s.readRing k part = some (status, results, u)) : u.ports = s.ports := by
  simp only [State.readRing] at h
  split at h
  · obtain ⟨v, hv, heq⟩ := Option.map_eq_some_iff.mp h
    cases heq
    exact (ports_examineEngine hv).trans rfl
  · cases h; rfl

/-! #### Requests (R128 to R148) -/

theorem ports_request {s t : State} {code : Nat} {run : List Byte → State → Option Answer}
    (h : s.request code run = .next t)
    (hr : ∀ args status results u, run args s = some (status, results, u) → u.ports = s.ports) :
    t.ports = s.ports := by
  rcases State.request_next h with rfl | ⟨q, r, _, rfl⟩ | ⟨q, status, results, u, hu, rfl⟩
  · rfl
  · rw [repliedOnly_eq]; rfl
  · rw [answered_eq]; exact (hr _ _ _ _ hu :)

theorem ports_gather {s t : State} {code : Nat} {blocks : List Block} {work : Block → State → State}
    {answer : State → Answer} (h : s.gather code blocks work answer = .next t)
    (hw : ∀ b, (work b s).ports = s.ports) (ha : (answer s).2.2.ports = s.ports) : t.ports = s.ports := by
  rcases State.gather_next h with rfl | ⟨q, r, _, rfl⟩ | ⟨b, rfl⟩ | ⟨q, rfl⟩
  · rfl
  · rw [repliedOnly_eq]; rfl
  · exact hw b
  · rw [answered_eq]; exact ha

theorem ports_statusShare (s : State) (b : Block) : (s.statusShare b).ports = s.ports := by
  cases b <;> rfl

theorem ports_clearShare (s : State) (b : Block) : (s.clearShare b).ports = s.ports := by
  cases b <;> rfl

/-- At a RESTART a port loses its counts alone (R145, R164). -/
theorem ports_restartShare (s : State) (b : Block) : (s.restartShare b).ports = s.ports := by
  cases b <;> rfl

theorem ports_atIndex {n : Nat} {s : State} {op : Fin n → Status × State} {i : Option (Fin n)}
    (ho : ∀ k, (op k).2.ports = s.ports) : (atIndex i s op).2.ports = s.ports :=
  atIndex_keeps (P := fun u => u.ports = s.ports) rfl ho

theorem ports_writeChecked {α : Type} {x : TableId} {enabled : Bool} {mask : Nat} {new : Option α}
    {fits : α → Bool} {s : State} {put : α → State} (hput : ∀ y, (put y).ports = s.ports) :
    (writeChecked x enabled mask new fits s put).2.ports = s.ports :=
  writeChecked_keeps (P := fun u => u.ports = s.ports) rfl fun y _ _ _ => hput y

theorem ports_writeEntry (s : State) (x : TableId) (i mask : Nat) (v : List Byte) :
    (s.writeEntry x i mask v).2.ports = s.ports := by
  cases x with
  | channel | slot | rule | ring => exact ports_atIndex fun _ => ports_writeChecked fun _ => rfl
  | node => rfl
  | global =>
    simp only [State.writeEntry]
    split
    · exact ports_writeChecked fun _ => rfl
    · rfl

theorem ports_enableEntry (s : State) (x : TableId) (i : Nat) :
    (s.enableEntry x i).2.ports = s.ports := by
  cases x with
  | channel => refine ports_atIndex fun c => ?_; simp only [State.enableChannel]; split_ifs <;> rfl
  | slot => refine ports_atIndex fun k => ?_; simp only [State.enableSlot]; split_ifs <;> rfl
  | rule => refine ports_atIndex fun k => ?_; simp only [State.enableRule]; split_ifs <;> rfl
  | ring => refine ports_atIndex fun k => ?_; simp only [State.enableRing]; split_ifs <;> rfl
  | node | global => rfl

theorem ports_disableEntry (s : State) (x : TableId) (i : Nat) :
    (s.disableEntry x i).2.ports = s.ports := by
  cases x with
  | channel => refine ports_atIndex fun c => ?_; simp only [State.disableChannel]; split_ifs <;> rfl
  | slot => refine ports_atIndex fun k => ?_; simp only [State.disableSlot]; split_ifs <;> rfl
  | rule => refine ports_atIndex fun k => ?_; simp only [State.disableRule]; split_ifs <;> rfl
  | ring => refine ports_atIndex fun k => ?_; simp only [State.disableRing]; split_ifs <;> rfl
  | node | global => rfl

theorem ports_releaseHalf (s : State) (k : Fin 8) (h : HalfId) :
    (s.releaseHalf k h).2.ports = s.ports := by
  simp only [State.releaseHalf]
  split_ifs
  · rfl
  · rfl
  · split <;> rfl

theorem ports_flushRing (s : State) (k : Fin 8) : (s.flushRing k).2.ports = s.ports := by
  simp only [State.flushRing]
  split_ifs
  · rfl
  · rfl
  · split
    · split <;> rfl
    · rfl

theorem ports_freezeRing (s : State) (k : Fin 8) : (s.freezeRing k).2.ports = s.ports := by
  simp only [State.freezeRing]
  split_ifs
  · rfl
  · rfl
  · rfl
  · exact ports_ringTakesFreeze _ _ _ _

theorem ports_rearmRing (s : State) (k : Fin 8) : (s.rearmRing k).2.ports = s.ports := by
  simp only [State.rearmRing]
  split_ifs
  · rfl
  · rfl
  · split <;> rfl

theorem ports_startSlot (s : State) (k : Fin 16) : (s.startSlot k).2.ports = s.ports := by
  simp only [State.startSlot]
  split <;> rfl

/-! #### Every other command -/

/-- The commands that reach training, a link state, a transmitter or the phase. -/
def reachesPorts : Instr → Bool
  | .hardReset _ _ => true
  | .initialisationComplete => true
  | .receiveTrain _ _ => true
  | .undecodableSymbol _ => true
  | .receiveHold _ => true
  | .receiveGo _ => true
  | .lossOfLock _ => true
  | .arbiterGrant => true
  | .obSend => true
  | .frameSendComplete _ => true
  | _ => false

theorem exec_keeps_ports {i : Instr} {s t : State} (hi : reachesPorts i = false)
    (h : exec i s = .next t) : t.ports = s.ports := by
  cases i with
  | hardReset | initialisationComplete | receiveTrain | undecodableSymbol | receiveHold | receiveGo
    | lossOfLock | arbiterGrant | obSend | frameSendComplete => cases hi
  | frameReceived p bytes =>
    simp only [exec, execFrameReceived] at h
    split at h <;> cases h
    · simp
    · rfl
  | holdSentChange p =>
    simp only [exec, execHoldSentChange] at h
    split at h <;> cases h
    · rfl
    · exact ports_setPort_of_training (training_takeOccupancy _ _ _)
  | flowSymbolRepeat p =>
    simp only [exec, execFlowSymbolRepeat] at h
    split at h <;> obtain rfl := Host.Outcome.next.inj h
    · exact ports_setPort_of_training (training_repeatSymbol _ _ _)
    · rfl
  | sampleFrameTaken =>
    simp only [exec, execSampleFrameTaken] at h
    split at h <;> cases h
    · exact (ports_takeSampleFrame _ _).trans rfl
    · rfl
  | fPortLeavingUpClassifier =>
    simp only [exec, execFPortLeavingUpClassifier] at h
    split at h <;> obtain rfl := Host.Outcome.next.inj h
    · rw [ports_unseeNodes, (State.placeMarks_onlyOffered _ _).ports, (State.passBy_onlyOffered _ _).ports]
      rfl
    · rfl
  | fwPlace way =>
    cases way <;> simp only [exec, execFwPlace] at h
    · split at h <;> cases h
      · exact (ports_offerFw _ _).trans rfl
      · rfl
    · split at h
      · split at h <;> cases h
        · exact (ports_offerFw _ _).trans rfl
        · rfl
      · cases h; rfl
  | slotTakeSample k =>
    simp only [exec, execSlotTakeSample] at h
    split at h <;> cases h
    · simp
    · rfl
  | slotTakeGapMark k =>
    simp only [exec, execSlotTakeGapMark] at h
    split at h <;> cases h
    · simp
    · rfl
  | slotStart k =>
    simp only [exec, execSlotStart] at h
    split at h <;> cases h <;> rfl
  | ruleTakeValue k =>
    simp only [exec, execRuleTakeValue] at h
    split at h
    · cases h; rfl
    · split at h <;> cases h
      · simp
      · rfl
  | ruleTakeGapMark k =>
    simp only [exec, execRuleTakeGapMark] at h
    split at h <;> cases h <;> rfl
  | ringTakeItem k =>
    simp only [exec, execRingTakeItem] at h
    split at h
    · cases h; rfl
    · cases h; rfl
    · obtain ⟨_, rfl⟩ := State.ringTakesWords_eq_some (captureOutcome_eq_next.mp h)
      rfl
  | ringTakeGapMark k =>
    simp only [exec, execRingTakeGapMark] at h
    split at h <;> cases h <;> rfl
  | ringFreeze k rule =>
    simp only [exec, execRingFreeze] at h
    split at h <;> cases h
    · simp
    · rfl
  | assemblerTakeRecord k =>
    simp only [exec, execAssemblerTakeRecord] at h
    split at h <;> cases h
    · exact (ports_assemble _ _).trans rfl
    · rfl
  | reducedHoldExpiry =>
    simp only [exec, execReducedHoldExpiry] at h
    split at h <;> cases h
    · simp
    · rfl
  | eventEnqueue r =>
    simp only [exec, execEventEnqueue] at h
    split at h <;> cases h <;> rfl
  | retransmitTimeout =>
    simp only [exec, execRetransmitTimeout] at h
    split at h <;> cases h <;> rfl
  | deliverySuspend =>
    simp only [exec, execDeliverySuspend] at h
    split at h <;> cases h <;> rfl
  | deliveryResume =>
    simp only [exec, execDeliveryResume] at h
    split at h <;> cases h <;> rfl
  | readoutFrameProduce => exact ports_produceOne (captureOutcome_eq_next.mp h)
  | terminatingFramePlace => cases h; exact ports_placeTerminator s
  | cPortLeavingUpEgress =>
    simp only [exec, execCPortLeavingUpEgress] at h
    split at h <;> cases h
    · rw [ports_emptyEgress, ports_readoutLinkLost]; rfl
    · rfl
  | cPortComingUpEgress =>
    simp only [exec, execCPortComingUpEgress] at h
    split at h
    · split at h
      · exact (ports_examineEngine (captureOutcome_eq_next.mp h)).trans rfl
      · cases h; rfl
    · cases h; rfl
  | fPortLeavingUpEgress =>
    simp only [exec, execFPortLeavingUpEgress] at h
    split at h <;> cases h <;> rfl
  | ident =>
    simp only [exec, execIdent] at h
    exact ports_request h fun _ _ _ _ hu => by cases hu; rfl
  | readEntry =>
    simp only [exec, execReadEntry] at h
    refine ports_request h fun args _ _ u hu => ?_
    split at hu <;> cases hu <;> rfl
  | writeEntry =>
    simp only [exec, execWriteEntry] at h
    refine ports_request h fun args _ _ u hu => ?_
    split at hu <;> cases hu
    · exact ports_writeEntry s _ _ _ _
    · rfl
  | enable =>
    simp only [exec, execEnable] at h
    refine ports_request h fun args _ _ u hu => ?_
    split at hu <;> cases hu
    · exact ports_enableEntry s _ _
    · rfl
  | disable =>
    simp only [exec, execDisable] at h
    refine ports_request h fun args _ _ u hu => ?_
    split at hu <;> cases hu
    · exact ports_disableEntry s _ _
    · rfl
  | readStatus => exact ports_gather h (ports_statusShare s) rfl
  | clearCounters => exact ports_gather h (ports_clearShare s) rfl
  | setTime =>
    simp only [exec, execSetTime] at h
    exact ports_request h fun _ _ _ _ hu => by cases hu; rfl
  | readRing =>
    simp only [exec, execReadRing] at h
    refine ports_request h fun args _ _ u hu => ?_
    split at hu
    · exact ports_readRing hu
    · cases hu; rfl
  | abortRead =>
    simp only [exec, execAbortRead] at h
    refine ports_request h fun args _ _ u hu => ?_
    split at hu <;> cases hu
    · exact ports_abortReadout s _
    · rfl
  | releaseHalf =>
    simp only [exec, execReleaseHalf] at h
    refine ports_request h fun args _ _ u hu => ?_
    split at hu <;> cases hu
    · exact ports_releaseHalf s _ _
    · rfl
  | flushRing =>
    simp only [exec, execFlushRing] at h
    exact ports_request h fun _ _ _ _ hu => by cases hu; exact ports_atIndex (ports_flushRing s)
  | freezeRing =>
    simp only [exec, execFreezeRing] at h
    exact ports_request h fun _ _ _ _ hu => by cases hu; exact ports_atIndex (ports_freezeRing s)
  | rearmRing =>
    simp only [exec, execRearmRing] at h
    exact ports_request h fun _ _ _ _ hu => by cases hu; exact ports_atIndex (ports_rearmRing s)
  | startSlot =>
    simp only [exec, execStartSlot] at h
    exact ports_request h fun _ _ _ _ hu => by cases hu; exact ports_atIndex (ports_startSlot s)
  | eventAck =>
    simp only [exec, execEventAck] at h
    refine ports_request h fun args _ _ u hu => ?_
    split at hu <;> cases hu <;> rfl
  | eventResync =>
    simp only [exec, execEventResync] at h
    refine ports_request h fun args _ _ u hu => ?_
    split at hu <;> cases hu <;> rfl
  | restart => exact ports_gather h (ports_restartShare s) rfl
  | unknownCode =>
    simp only [exec, execUnknownCode] at h
    split at h
    · split at h
      · cases h; rfl
      · rcases State.serve_cases (captureOutcome_eq_next.mp h) with ⟨r, _, rfl⟩ | ⟨_, _, u, hu, rfl⟩
        · rw [repliedOnly_eq]; rfl
        · cases hu; rw [answered_eq]; rfl
    · cases h; rfl
  | requestTooShort =>
    simp only [exec, execRequestTooShort] at h
    split at h
    · split at h <;> cases h
      · exact ports_chargeMalformed s .c
      · rfl
    · cases h; rfl

end Sys2Proof.Machine

/-! ### The commands that reach it -/

namespace Sys2Proof

open Sys2Proof.Machine

/-! #### One port (R164, R166, R168) -/

section
variable {x : Port} (h : Port.Sound x)

/-- Leaving UP returns the port to the start of training, whatever it was doing (R168). -/
theorem leaveUp_sound (x : Port) : Port.Sound x.leaveUp :=
  ⟨Nat.zero_le _, ⟨nofun, nofun⟩, nofun, fun _ => ⟨by rw [Port.leaveUp, Port.cutFrame_eq], rfl⟩⟩

/-- In UP the transmitter is free to send and to pause. -/
theorem portSound_of_up (hup : x.link = .up) (hcount : x.trainCount = 8) (hheard : x.heard = true) :
    Port.Sound x :=
  ⟨hcount.le, iff_of_true hheard hcount, fun _ => hcount, fun hnot => absurd hup hnot⟩

include h

theorem countTrain_sound (ht : x.link = .training) : Port.Sound x.countTrain := by
  obtain ⟨_, _, _, hidle⟩ := h
  refine ⟨Nat.min_le_right _ _, ?_, fun hup => ?_, hidle⟩
  · show decide (8 ≤ x.trainCount + 1) = true ↔ min (x.trainCount + 1) 8 = 8
    rw [decide_eq_true_iff]
    omega
  · cases ht.symm.trans hup

theorem restartTraining_sound (hnot : x.link ≠ .up) : Port.Sound x.restartTraining := by
  obtain ⟨_, _, _, hidle⟩ := h
  exact ⟨Nat.zero_le _, ⟨nofun, nofun⟩, fun hup => absurd hup hnot, hidle⟩

theorem beginTraining_sound (hnot : x.link ≠ .up) : Port.Sound x.beginTraining := by
  obtain ⟨_, _, _, hidle⟩ := h
  exact ⟨Nat.zero_le _, ⟨nofun, nofun⟩, nofun, fun _ => hidle hnot⟩

/-- Count 8, at which a port enters UP, comes with heard (R166). -/
theorem enterUp_sound (hcount : Config.trainTarget ≤ x.trainCount) : Port.Sound x.enterUp := by
  obtain ⟨hle, hheard, _⟩ := h
  have hcount : x.trainCount = 8 := Nat.le_antisymm hle hcount
  exact portSound_of_up rfl hcount (hheard.mpr hcount)

/-- What a port in UP does with its transmitter (R158, R163, R169). -/
theorem transmitter_sound (hup : x.link = .up) {y : Port} (hy : y.link = .up)
    (hcount : y.trainCount = x.trainCount) (hheard : y.heard = x.heard) : Port.Sound y := by
  obtain ⟨_, hiff, htarget, _⟩ := h
  have hx : x.trainCount = 8 := htarget hup
  exact portSound_of_up hy (hcount.trans hx) (hheard.trans (hiff.mpr hx))

/-- A transmitter that has sent its frame is free, in UP or not. -/
theorem sent_sound (line : List LineItem) : Port.Sound { x with sending := none, line := line } := by
  obtain ⟨hle, hheard, hup, hidle⟩ := h
  exact ⟨hle, hheard, hup, fun hnot => ⟨rfl, (hidle hnot).2⟩⟩

end

/-! #### The part -/

section
variable {s t : State} (hs : PortsSound s)
include hs

theorem PortsSound.enterUp {p : PortId} (ht : (s.port p).link = .training)
    (hcount : Config.trainTarget ≤ (s.port p).trainCount) : PortsSound (s.enterUp p) := by
  have hport : PortsSound (s.setPort p (s.port p).enterUp) :=
    hs.setPort (enterUp_sound (hs.port p) hcount) (iff_of_false nofun (by rw [ht]; nofun))
  exact hport.of_ports (ports_tellLinkChange _ _ _)

theorem PortsSound.leaveUp {p : PortId} (hup : (s.port p).link = .up) : PortsSound (s.leaveUp p) := by
  have hport : PortsSound (s.setPort p (s.port p).leaveUp) :=
    hs.setPort (leaveUp_sound _) (iff_of_false nofun (by rw [hup]; nofun))
  exact hport.of_ports (ports_tellLinkChange _ _ _)

theorem PortsSound.restartTraining {p : PortId} (ht : (s.port p).link = .training) :
    PortsSound (s.setPort p (s.port p).restartTraining) :=
  hs.setPort (restartTraining_sound (hs.port p) (by rw [ht]; nofun)) Iff.rfl

theorem PortsSound.receiveFlow (p : PortId) (paused : Bool) : PortsSound (s.receiveFlow p paused) := by
  simp only [State.receiveFlow]
  split
  · next hup => exact hs.setPort (transmitter_sound (hs.port p) hup hup rfl rfl) Iff.rfl
  · next ht =>
    split
    · next hcount => exact hs.enterUp ht hcount
    · exact hs
  · exact hs

/-- A port in UP begins to send a frame (R158, R163). -/
theorem PortsSound.beginFrame {p : PortId} (hup : (s.port p).link = .up) (bytes : List Byte) :
    PortsSound (s.setPort p ((s.port p).beginFrame bytes)) :=
  hs.setPort (transmitter_sound (hs.port p) hup hup rfl rfl) Iff.rfl

/-- A grant at most begins a frame at the C-port (R158). -/
theorem PortsSound.grant {c : Claimant} (hup : s.cPort.link = .up) (h : s.grant c = some t) :
    PortsSound t := by
  have hsend : ∀ {u : State} (bytes : List Byte), u.ports = (s.sendC bytes).ports → PortsSound u :=
    fun bytes hu => (hs.beginFrame (p := .c) hup bytes).of_ports hu
  cases c with
  | mr =>
    cases h
    simp only [State.grantMr]
    split
    · exact hsend _ rfl
    · exact hs
  | ev => cases h; exact hsend _ rfl
  | fw =>
    cases h
    simp only [State.grantFw]
    split
    · exact hsend _ rfl
    · exact hs
  | dt =>
    simp only [State.grant, State.grantDt] at h
    split at h
    · next f fs _ =>
      refine hsend (f.bytes s.ownNode) ?_
      split at h
      · exact (ports_examineEngine h).trans ((ports_engineGranted _ _).trans rfl)
      · exact (ports_examineEngine h).trans rfl
    · cases h; exact hs

theorem PortsSound.exec {i : Instr} (h : exec i s = .next t) : PortsSound t := by
  by_cases hi : reachesPorts i = false
  · exact hs.of_ports (exec_keeps_ports hi h)
  cases i with
  | hardReset cause straps =>
    simp only [Machine.exec, execHardReset] at h
    split at h <;> cases h
    · exact (portsSound_resetWith straps).of_ports rfl
    · exact hs
  | initialisationComplete =>
    simp only [Machine.exec, execInitialisationComplete] at h
    split at h <;> cases h
    · next hphase =>
      obtain ⟨hf, hc, hfdown, hcdown⟩ := hs
      have hf := beginTraining_sound hf (by rw [hfdown.mp hphase]; nofun)
      have hc := beginTraining_sound hc (by rw [hcdown.mp hphase]; nofun)
      exact ⟨hf, hc, iff_of_false nofun nofun, iff_of_false nofun nofun⟩
    · exact hs
  | receiveTrain p heard =>
    simp only [Machine.exec, execReceiveTrain] at h
    split at h
    · cases h; exact hs
    · next ht =>
      have hcounted : PortsSound (s.setPort p (s.port p).countTrain) :=
        hs.setPort (countTrain_sound (hs.port p) ht) Iff.rfl
      split at h <;> cases h
      · next hfull =>
        obtain ⟨_, hcount⟩ := hfull
        refine hcounted.enterUp ?_ ?_
        · rw [State.port_setPort_self]; exact ht
        · rw [State.port_setPort_self]; exact hcount
      · exact hcounted
    · next hup =>
      split at h <;> cases h
      · exact hs
      · exact hs.leaveUp hup
  | undecodableSymbol p =>
    simp only [Machine.exec, execUndecodableSymbol] at h
    split at h <;> cases h
    · next ht => exact hs.restartTraining ht
    · exact hs
  | receiveHold p => cases h; exact hs.receiveFlow p true
  | receiveGo p => cases h; exact hs.receiveFlow p false
  | lossOfLock p =>
    simp only [Machine.exec, execLossOfLock] at h
    split at h <;> cases h
    · next hup => exact hs.leaveUp hup
    · next ht => exact hs.restartTraining ht
    · exact hs
  | arbiterGrant =>
    simp only [Machine.exec, execArbiterGrant] at h
    split at h
    · next hfree =>
      simp only [State.arbiterFree, Bool.and_eq_true, decide_eq_true_eq] at hfree
      obtain ⟨⟨⟨⟨hup, _⟩, _⟩, _⟩, _⟩ := hfree
      split at h
      · exact hs.grant hup (captureOutcome_eq_next.mp h)
      · cases h; exact hs
    · cases h; exact hs
  | obSend =>
    simp only [Machine.exec, execObSend] at h
    split at h
    · next hfree =>
      obtain ⟨hup, _⟩ := hfree
      split at h <;> cases h
      · next bytes _ _ => exact (hs.beginFrame (p := .f) hup bytes).of_ports rfl
      · exact hs
    · cases h; exact hs
  | frameSendComplete p =>
    simp only [Machine.exec, execFrameSendComplete] at h
    split at h <;> cases h
    · exact hs.setPort (sent_sound (hs.port p) _) Iff.rfl
    · exact hs
  | _ => exact absurd rfl hi

theorem PortsSound.tick : PortsSound s.tick := by
  refine hs.of_ports ?_
  simp only [State.tick, Port.tick_eq]
  rfl

end

/-- Settles O14: a command that reaches a link state, training or a transmitter keeps each port sound, and
every other one leaves these as they are. -/
theorem portsStaySound : Obligations.PortsStaySound := by
  intro s t hs h
  rcases step_cases h with rfl | ⟨c, rest, _, h⟩
  · exact hs.tick
  · have hrest : PortsSound { s with pending := rest } := hs.of_ports rfl
    exact hrest.exec h

end Sys2Proof

/-! ## A port leaves UP (O17) -/

namespace Sys2Proof

open Sys2Proof.Machine

section
variable {s : State} {p : PortId}

/-- What leaving UP changes: the port, the requests of the event unit and, of each port, what the blocks
concerned are told. -/
theorem leaveUp_eq (s : State) (p : PortId) : s.leaveUp p = { s.setPort p (s.port p).leaveUp with
    classifier := { s.classifier with
      inbox := s.classifier.inbox ++ (if p = .f then [.portLeftUp] else []) }
    events := { s.events with
      requests := s.events.requests ++ [linkStateRequest p .leftUp s.timebase]
      linkChanges := s.events.linkChanges ++ (if p = .c then [.leftUp] else []) }
    egress := { s.egress with
      cChanges := s.egress.cChanges ++ (if p = .c then [.leftUp] else [])
      fLosses := s.egress.fLosses + (if p = .f then 1 else 0) } } := by
  rw [State.leaveUp, State.tellLinkChange_eq]
  cases p <;> simp [State.requestEvent, State.setPort]

theorem port_leaveUp_self : (s.leaveUp p).port p = (s.port p).leaveUp := by
  cases p <;> rfl

theorem port_leaveUp_other {q : PortId} (hq : q ≠ p) : (s.leaveUp p).port q = s.port q := by
  have hset : (s.leaveUp p).port q = (s.setPort p (s.port p).leaveUp).port q := by
    cases p <;> cases q <;> rfl
  rw [hset, State.port_setPort, if_neg hq.symm]

theorem linkStateRequest_leftUp (p : PortId) (now : Nat) : linkStateRequest p .leftUp now
    = { requester := .port p, kind := .linkState, subject := if p = .f then 0 else 2,
        channel := none, value := none, count := none, time := now } := by
  cases p <;> rfl

theorem exec_leavesUp {c : Instr} (h : (s.port p).link = .up)
    (hc : c = .lossOfLock p ∨ c = .receiveTrain p false) : exec c s = .next (s.leaveUp p) := by
  rcases hc with rfl | rfl
  · simp only [exec, execLossOfLock, h]
  · simp only [exec, execReceiveTrain, h]
    rfl

end

/-- Settles O17: both ways out of UP are the one operation, whose updates are those the statement lists. -/
theorem leavingUpRetrains : Obligations.LeavingUpRetrains := by
  intro p c s h
  refine ⟨?_, ?_, fun hc => ⟨_, exec_leavesUp h hc, ?_⟩⟩
  · simp only [exec, execReceiveTrain, h, if_true]
  · simp only [exec, execUndecodableSymbol, h]
  · rw [← linkStateRequest_leftUp]
    refine ⟨?_, fun q hq => port_leaveUp_other hq, ?_⟩
    · rw [port_leaveUp_self, Port.leaveUp, Port.cutFrame_eq]
    · rw [leaveUp_eq]
      refine ⟨rfl, rfl, rfl, rfl, rfl, ?_⟩
      cases p <;> rfl

end Sys2Proof

/-! ## Flow control (O18, O19) -/

namespace Sys2Proof

open Sys2Proof.Machine

/-! ### Paused (R169) -/

section
variable {s : State} {p : PortId}

theorem receiveFlow_of_up (h : (s.port p).link = .up) (paused : Bool) :
    s.receiveFlow p paused = s.setPort p { s.port p with paused := paused } := by
  simp only [State.receiveFlow, h]

/-- A symbol that says what the flag already says changes nothing. -/
theorem receiveFlow_of_same (h : (s.port p).link = .up) {paused : Bool}
    (hp : (s.port p).paused = paused) : s.receiveFlow p paused = s := by
  subst hp
  rw [receiveFlow_of_up h]
  exact State.setPort_port s p

theorem exec_arbiterGrant_of_paused (h : s.cPort.paused = true) : exec .arbiterGrant s = .next s := by
  have hfree : s.arbiterFree = false := by simp [State.arbiterFree, h]
  simp only [exec, execArbiterGrant, hfree, Bool.false_eq_true, if_false]

theorem exec_obSend_of_paused (h : s.fPort.paused = true) : exec .obSend s = .next s := by
  have hnot : ¬ (s.fPort.link = .up ∧ s.fPort.sending = none ∧ s.fPort.paused = false
      ∧ s.egress.fLosses = 0) := fun ⟨_, _, hp, _⟩ => by rw [h] at hp; cases hp
  exact if_neg hnot

theorem exec_frameSendComplete {bytes : List Byte} (h : (s.port p).sending = some bytes) :
    exec (.frameSendComplete p) s = .next (s.setPort p
      { s.port p with sending := none, line := (s.port p).line ++ [.frameSent] }) := by
  simp only [exec, execFrameSendComplete, h]

end

/-- Settles O18: the two symbols set the flag and nothing else, and only what begins a frame looks at it. -/
theorem flowSymbolsPauseTransmitter : Obligations.FlowSymbolsPauseTransmitter := by
  refine ⟨fun p s h => ⟨?_, ?_, fun hp => ?_, fun hp => ?_⟩, fun s => exec_arbiterGrant_of_paused,
    fun s => exec_obSend_of_paused, fun p s bytes => exec_frameSendComplete, fun p s h hbelow => ⟨?_, ?_⟩⟩
  · exact congrArg Host.Outcome.next (receiveFlow_of_up h true)
  · exact congrArg Host.Outcome.next (receiveFlow_of_up h false)
  · exact congrArg Host.Outcome.next (receiveFlow_of_same h hp)
  · exact congrArg Host.Outcome.next (receiveFlow_of_same h hp)
  · exact congrArg Host.Outcome.next (receiveFlow_below h hbelow true)
  · exact congrArg Host.Outcome.next (receiveFlow_below h hbelow false)

/-! ### Hold sent (R170) -/

theorem highThreshold_eq (p : PortId) : highThreshold p = if p = .f then 24 else 6 := by
  cases p <;> rfl

theorem lowThreshold_eq (p : PortId) : lowThreshold p = if p = .f then 8 else 2 := by
  cases p <;> rfl

theorem exec_holdSentChange {s : State} {p : PortId} {o : OccupancyChange} {rest : List OccupancyChange}
    (h : (s.port p).occupancy = o :: rest) : exec (.holdSentChange p) s
      = .next (s.setPort p (Port.takeOccupancy p { s.port p with occupancy := rest } o)) := by
  simp only [exec, execHoldSentChange, h]

/-- A queue that grows by one frame reaches its high threshold exactly, unless the flag was on before. -/
theorem holdSentAfter_joined {p : PortId} {holdSent : Bool} {n : Nat}
    (h : n ≤ highThreshold p ∨ holdSent = true) :
    holdSentAfter p holdSent (.joined n) = if n = highThreshold p then true else holdSent := by
  cases holdSent with
  | true => simp [holdSentAfter]
  | false =>
    have hle : n ≤ highThreshold p := h.resolve_right nofun
    simp [holdSentAfter, hle.ge_iff_eq]

theorem holdSentAfter_removed (p : PortId) (holdSent : Bool) (n : Nat) :
    holdSentAfter p holdSent (.removed n) = if n ≤ lowThreshold p then false else holdSent := by
  by_cases hn : n ≤ lowThreshold p
  · simp [holdSentAfter, hn]
  · simp [holdSentAfter, hn, Nat.lt_of_not_le hn]

/-- The flag turns on, and is announced, at the high threshold alone (R170). -/
theorem takeOccupancy_joined {p : PortId} {x : Port} {n : Nat}
    (h : n ≤ highThreshold p ∨ x.holdSent = true) : Port.takeOccupancy p x (.joined n) = { x with
      holdSent := if n = highThreshold p then true else x.holdSent
      line := x.line ++ (if x.holdSent = false ∧ n = highThreshold p ∧ x.link = .up
        then [.symbol .hold] else []) } := by
  rw [Port.takeOccupancy_eq, holdSentAfter_joined h]
  by_cases hn : n = highThreshold p
  · cases hb : x.holdSent <;> simp [hn]
  · simp [hn]

/-- The flag turns off, and is announced, at the low threshold or below (R170). -/
theorem takeOccupancy_removed (p : PortId) (x : Port) (n : Nat) :
    Port.takeOccupancy p x (.removed n) = { x with
      holdSent := if n ≤ lowThreshold p then false else x.holdSent
      line := x.line ++ (if x.holdSent = true ∧ n ≤ lowThreshold p ∧ x.link = .up
        then [.symbol .go] else []) } := by
  rw [Port.takeOccupancy_eq, holdSentAfter_removed]
  by_cases hn : n ≤ lowThreshold p
  · cases hb : x.holdSent <;> simp [hn]
  · simp [hn]

theorem exec_flowSymbolRepeat {s : State} {p : PortId} (h : (s.port p).link = .up)
    (hperiod : 1000 ≤ (s.port p).flowElapsed) : exec (.flowSymbolRepeat p) s = .next (s.setPort p
      { s.port p with
        flowElapsed := (s.port p).flowElapsed - 1000
        line := (s.port p).line ++ [.symbol (if (s.port p).holdSent = true then .hold else .go)] }) :=
  if_pos ⟨h, hperiod⟩

/-- Settles O19: each kind of change is one equation of the port, and the end of a period repeats the symbol
of its flag. -/
theorem holdSentFollowsOccupancy : Obligations.HoldSentFollowsOccupancy := by
  refine ⟨fun p s n rest high hhigh ho hn => ?_, fun p s n rest low hlow ho => ?_,
    fun p s => exec_flowSymbolRepeat⟩
  · rw [← highThreshold_eq] at hhigh
    subst hhigh
    rw [exec_holdSentChange ho, takeOccupancy_joined (x := { s.port p with occupancy := rest }) hn]
    exact ⟨_, rfl, rfl, rfl, rfl⟩
  · rw [← lowThreshold_eq] at hlow
    subst hlow
    rw [exec_holdSentChange ho, takeOccupancy_removed]
    exact ⟨_, rfl, rfl, rfl, rfl⟩

end Sys2Proof

/-! ## The checks of a received frame (O20) -/

namespace Sys2Proof

open Sys2Proof.Machine

/-! ### A body closed by two bytes (R171) -/

section
variable {body : List Byte} {hi lo : Byte}

theorem byteAt_append_left {bs : List Byte} (cs : List Byte) {i : Nat} (h : i < bs.length) :
    byteAt (bs ++ cs) i = byteAt bs i := by
  rw [byteAt, List.getD_append _ _ _ _ h, byteAt]

/-- Two bytes read as a number are their concatenation, most significant first. -/
theorem ofNat_read2_append (body : List Byte) (hi lo : Byte) :
    BitVec.ofNat 16 (read2 (body ++ [hi, lo]) body.length) = hi ++ lo := by
  have hread : read2 (body ++ [hi, lo]) body.length = hi.toNat * 256 + lo.toNat := by
    simp [read2, byteAt]
  refine BitVec.eq_of_toNat_eq ?_
  rw [hread, BitVec.toNat_append, ← Nat.shiftLeft_add_eq_or_of_lt lo.isLt, Nat.shiftLeft_eq]
  exact Nat.mod_eq_of_lt (by have := hi.isLt; have := lo.isLt; omega)

theorem crcGood_closed_iff : crcGood (body ++ [hi, lo]) = true ↔ crc16 body = hi ++ lo := by
  have hlength : (body ++ [hi, lo]).length - 2 = body.length := by simp
  rw [crcGood, hlength, List.take_left, ofNat_read2_append, beq_iff_eq]

theorem lengthGood_closed_iff : lengthGood (body ++ [hi, lo]) = true
    ↔ 4 ≤ body.length ∧ byteAt body 3 ≤ 252 ∧ byteAt body 3 = body.length - 4 := by
  have hlength : (body ++ [hi, lo]).length = body.length + 2 := by simp
  simp only [lengthGood, hlength, Bool.and_eq_true, decide_eq_true_eq, and_assoc]
  by_cases hheader : 4 ≤ body.length
  · rw [byteAt_append_left _ (by omega)]
    omega
  · omega

theorem kindGood_closed_iff (h : body ≠ []) : kindGood (body ++ [hi, lo]) = true
    ↔ 1 ≤ byteAt body 0 / 16 ∧ byteAt body 0 / 16 ≤ 8 := by
  simp [kindGood, frameKind, byteAt_append_left _ (List.length_pos_of_ne_nil h)]

end

/-! ### What the checks lead to (R171, R176) -/

theorem exec_frameReceived_of_up {s : State} {p : PortId} {bytes : List Byte}
    (hup : (s.port p).link = .up) (hlong : 2 ≤ bytes.length) :
    exec (.frameReceived p bytes) s = .next (s.takeFrame p bytes) :=
  if_pos ⟨hup, hlong⟩

theorem takeFrame_crcError {bytes : List Byte} (hcrc : crcGood bytes = false) (s : State) (p : PortId) :
    s.takeFrame p bytes = s.setPort p
      { s.port p with crcErrors := min ((s.port p).crcErrors + 1) 4294967295 } :=
  if_pos hcrc

theorem takeFrame_malformed {bytes : List Byte} (hcrc : crcGood bytes = true)
    (hbad : lengthGood bytes = false ∨ kindGood bytes = false) (s : State) (p : PortId) :
    s.takeFrame p bytes = s.setPort p
      { s.port p with malformed := min ((s.port p).malformed + 1) 4294967295 } :=
  (if_neg (by rw [hcrc]; nofun)).trans (if_pos hbad)

/-- What takes a frame over counts it neither as good nor as a CRC error. -/
theorem handOn_keeps_counts (s : State) (p : PortId) (bytes : List Byte) :
    ((s.handOn p bytes).port p).framesGood = (s.port p).framesGood
      ∧ ((s.handOn p bytes).port p).crcErrors = (s.port p).crcErrors := by
  cases p with
  | f =>
    simp only [State.handOn]
    split <;> exact ⟨rfl, rfl⟩
  | c =>
    rw [handOn_cPort s rfl (Bool.not_not _).symm]
    exact ⟨rfl, rfl⟩

/-- Settles O20: the three checks are conditions on the body and the two bytes behind it, and the first that
fails decides the count. -/
theorem receivedFramesAreChecked : Obligations.ReceivedFramesAreChecked := by
  intro p s body hi lo hup
  have hlong : 2 ≤ (body ++ [hi, lo]).length := by simp
  refine ⟨fun hcrc => ?_, fun hcrc hbad => ?_, fun hcrc hheader hmost hlength hlow hhigh => ?_⟩
  · rw [ne_eq, ← crcGood_closed_iff, Bool.not_eq_true] at hcrc
    rw [exec_frameReceived_of_up hup hlong, takeFrame_crcError hcrc]
  · rw [exec_frameReceived_of_up hup hlong, takeFrame_malformed (crcGood_closed_iff.mpr hcrc) ?_]
    by_cases hgood : 4 ≤ body.length ∧ byteAt body 3 ≤ 252 ∧ byteAt body 3 = body.length - 4
    · have hbody : body ≠ [] := List.ne_nil_of_length_pos (by omega)
      refine .inr ?_
      rw [Bool.eq_false_iff, ne_eq, kindGood_closed_iff hbody]
      omega
    · refine .inl ?_
      rw [Bool.eq_false_iff, ne_eq, lengthGood_closed_iff]
      exact hgood
  · have hbody : body ≠ [] := List.ne_nil_of_length_pos (by omega)
    have haccepted : Accepted (body ++ [hi, lo]) := ⟨crcGood_closed_iff.mpr hcrc,
      lengthGood_closed_iff.mpr ⟨hheader, hmost, hlength⟩, (kindGood_closed_iff hbody).mpr ⟨hlow, hhigh⟩⟩
    refine ⟨_, exec_frameReceived_accepted hup haccepted, ?_⟩
    obtain ⟨hgood, herrors⟩ := handOn_keeps_counts (s.setPort p
      { s.port p with framesGood := min ((s.port p).framesGood + 1) 4294967295 }) p (body ++ [hi, lo])
    rw [hgood, herrors, State.port_setPort_self]
    exact ⟨rfl, rfl⟩

end Sys2Proof

/-! ## The frames and records the part forms (O43) -/

namespace Sys2Proof.Machine

/-! ### Fields that fit where they stand (chapter 10 opening) -/

section
variable {bs : List Byte} {i n : Nat}

theorem byteAt_of (hn : n < 256) (h : bs.getD i 0 = byteOf n) : byteAt bs i = n :=
  (atByte_of h).trans (Nat.mod_eq_of_lt hn)

theorem read2_of (hn : n < 65536) (h : (bs.drop i).take 2 = bytes2 n) : read2 bs i = n :=
  (at2_of h).trans (Nat.mod_eq_of_lt hn)

theorem read4_of (hn : n < 4294967296) (h : (bs.drop i).take 4 = bytes4 n) : read4 bs i = n :=
  (at4_of h).trans (Nat.mod_eq_of_lt hn)

/-- The four bytes of a value of a word read as that value, two's complement. -/
theorem readSigned4_of {v : Int} (hv : WordFits v) (h : (bs.drop i).take 4 = signed4 v) :
    readSigned4 bs i = v := by
  obtain ⟨hlow, hhigh⟩ := hv
  have hread : (read4 bs i : Int) = v % 4294967296 := atSigned_of h
  rw [readSigned4]
  split <;> omega

end

/-! ### Records of one length behind a head

The payloads of EVENT, REDUCED and READOUT frames are a head and then records of `k` bytes each. -/

section
variable {α : Type} {f : α → List Byte} {k : Nat}

theorem flatMap_length_of_forall (hk : ∀ a, (f a).length = k) (xs : List α) :
    (xs.flatMap f).length = k * xs.length := by
  simp [List.length_flatMap, hk, Nat.mul_comm]

theorem slice_flatMap (hk : ∀ a, (f a).length = k) {xs : List α} {j : Nat} {x : α}
    (hx : xs[j]? = some x) : ((xs.flatMap f).drop (k * j)).take k = f x := by
  induction xs generalizing j with
  | nil => cases hx
  | cons y ys ih =>
    rw [List.flatMap_cons]
    cases j with
    | zero =>
      obtain rfl : y = x := Option.some.inj hx
      exact List.take_left' (hk y)
    | succ j =>
      rw [Nat.mul_succ, Nat.add_comm, ← List.drop_drop, List.drop_left' (hk y)]
      exact ih hx

theorem slice_record (hk : ∀ a, (f a).length = k) (head : List Byte) {xs : List α} {j : Nat} {x : α}
    (hx : xs[j]? = some x) : ((head ++ xs.flatMap f).drop (head.length + k * j)).take k = f x := by
  rw [← List.drop_drop, List.drop_left, slice_flatMap hk hx]

end

/-! ### The frame around a payload (section 10.1, R176) -/

theorem formFrame_eq_frameAround (kind own : Nat) (payload : List Byte) :
    formFrame kind own payload = frameAround (byteOf (kind * 16)) (byteOf 0) (byteOf own) payload := rfl

theorem byteAt_formFrame_zero {kind : Nat} (h : kind ≤ 8) (own : Nat) (payload : List Byte) :
    byteAt (formFrame kind own payload) 0 = kind * 16 :=
  byteAt_of (by omega) rfl

theorem accepted_formFrame {kind : Nat} (hlow : 1 ≤ kind) (hhigh : kind ≤ 8) (own : Nat)
    {payload : List Byte} (h : payload.length ≤ 252) : Accepted (formFrame kind own payload) := by
  refine ⟨crcGood_withCrc _, lengthGood_frameAround h, ?_⟩
  rw [kindGood, frameKind, byteAt_formFrame_zero hhigh, Nat.mul_div_cancel _ (by decide)]
  simp only [hlow, hhigh, decide_true, Bool.and_self]

/-! ### Event records (section 10.4) -/

theorem EventRecord.bytes_length (r : EventRecord) : r.bytes.length = 18 := rfl

theorem EventRecord.presence_eq (r : EventRecord) :
    r.presence = (if r.value = none then 0 else 1) + (if r.count = none then 0 else 2) := by
  rw [EventRecord.presence]
  cases r.value <;> cases r.count <;> rfl

theorem EventRecord.presence_lt (r : EventRecord) : r.presence < 256 := by
  rw [EventRecord.presence_eq]
  split <;> split <;> decide

theorem EventKind.code_lt (k : EventKind) : k.code < 256 := by cases k <;> decide

/-- The channel byte of an event record: 255 stands for none. -/
theorem EventRecord.byteAt_channel (r : EventRecord) : byteAt r.bytes 4 = (match r.channel with
    | some c => c.val
    | none => 255) := by
  refine byteAt_of ?_ rfl
  cases r.channel with
  | none => decide
  | some c => exact c.isLt.trans (by decide)

/-! ### Reduced records (section 10.4) -/

/-- The number whose four bytes a reduced record carries behind its value: the index of the first sample,
or the minimum of a PEAK record as a word (R33). -/
def OutputRecord.second (r : OutputRecord) : Nat :=
  match r.data with
  | .value _ => r.firstIndex
  | .peak _ low => (low % 4294967296).toNat

/-- The value, or the maximum, of a reduced record (R33). -/
def OutputRecord.first (r : OutputRecord) : Int :=
  match r.data with
  | .value v => v
  | .peak high _ => high

theorem OutputRecord.bytes_eq (r : OutputRecord) :
    r.bytes = [byteOf r.slot.val, byteOf r.flags] ++ bytes4 r.outputIndex
      ++ (signed4 r.first ++ bytes4 r.second) ++ bytes4 r.time := by
  rw [OutputRecord.bytes, OutputRecord.first, OutputRecord.second]
  cases r.data <;> rfl

theorem OutputRecord.bytes_length (r : OutputRecord) : r.bytes.length = 18 := by
  rw [OutputRecord.bytes_eq]
  rfl

/-- Both parts of a reduced record's flags are read back: the mode in the low two bits, after gap in the
third. -/
theorem OutputRecord.flags_split (r : OutputRecord) : r.flags < 256 ∧ r.flags % 4 = r.mode.code
    ∧ r.flags / 4 = if r.afterGap = true then 1 else 0 := by
  rw [OutputRecord.flags]
  cases r.mode <;> cases r.afterGap <;> decide

theorem OutputRecord.byteAt_slot (r : OutputRecord) : byteAt r.bytes 0 = r.slot.val := by
  rw [OutputRecord.bytes_eq]
  exact byteAt_of (r.slot.isLt.trans (by decide)) rfl

theorem OutputRecord.byteAt_flags (r : OutputRecord) : byteAt r.bytes 1 = r.flags := by
  rw [OutputRecord.bytes_eq]
  exact byteAt_of r.flags_split.1 rfl

theorem OutputRecord.read4_outputIndex {r : OutputRecord} (h : r.outputIndex < 4294967296) :
    read4 r.bytes 2 = r.outputIndex := by
  rw [OutputRecord.bytes_eq]
  exact read4_of h rfl

theorem OutputRecord.readSigned4_first {r : OutputRecord} {v : Int} (hfirst : r.first = v)
    (h : WordFits v) : readSigned4 r.bytes 6 = v := by
  rw [OutputRecord.bytes_eq, hfirst]
  exact readSigned4_of h rfl

theorem OutputRecord.slice_second (r : OutputRecord) : (r.bytes.drop 10).take 4 = bytes4 r.second := by
  rw [OutputRecord.bytes_eq]
  rfl

theorem OutputRecord.read4_firstIndex {r : OutputRecord} {v : Int} (hdata : r.data = .value v)
    (h : r.firstIndex < 4294967296) : read4 r.bytes 10 = r.firstIndex := by
  have hsecond : r.second = r.firstIndex := by rw [OutputRecord.second, hdata]
  exact read4_of h (r.slice_second.trans (congrArg bytes4 hsecond))

theorem OutputRecord.readSigned4_low {r : OutputRecord} {high low : Int}
    (hdata : r.data = .peak high low) (h : WordFits low) : readSigned4 r.bytes 10 = low := by
  have hsecond : r.second = (low % 4294967296).toNat := by rw [OutputRecord.second, hdata]
  exact readSigned4_of h (r.slice_second.trans (congrArg bytes4 hsecond))

theorem OutputRecord.read4_time {r : OutputRecord} (h : r.time < 4294967296) :
    read4 r.bytes 14 = r.time := by
  rw [OutputRecord.bytes_eq]
  exact read4_of h rfl

/-! ### The payloads (sections 10.3 and 10.4) -/

theorem Status.code_lt (x : Status) : x.code < 256 := by cases x <;> decide

/-- The payload of a REPLY frame. -/
def Reply.payload (r : Reply) : List Byte := [r.tag, r.number, r.code, byteOf r.status.code] ++ r.results

theorem Reply.bytes_eq (own : Nat) (r : Reply) : r.bytes own = formFrame 4 own r.payload := rfl

/-- The payload of an EVENT frame that begins with a record. -/
def eventPayload (first : EventRecord) (more : List EventRecord) : List Byte :=
  (bytes2 first.serial ++ [byteOf (more.length + 1)]) ++ (first :: more).flatMap EventRecord.bytes

theorem eventFrame_eq (own : Nat) (first : EventRecord) (more : List EventRecord) :
    eventFrame own (first :: more) = formFrame 5 own (eventPayload first more) := rfl

theorem eventPayload_length (first : EventRecord) (more : List EventRecord) :
    (eventPayload first more).length = 3 + 18 * (more.length + 1) := by
  rw [eventPayload, List.length_append, flatMap_length_of_forall EventRecord.bytes_length]
  rfl

theorem eventPayload_slice {first r : EventRecord} {more : List EventRecord} {j : Nat}
    (h : (first :: more)[j]? = some r) :
    ((eventPayload first more).drop (3 + 18 * j)).take 18 = r.bytes :=
  slice_record EventRecord.bytes_length (bytes2 first.serial ++ [byteOf (more.length + 1)]) h

/-- The payload of a REDUCED frame. -/
def reducedPayload (records : List OutputRecord) : List Byte :=
  [byteOf records.length] ++ records.flatMap OutputRecord.bytes

theorem reducedFrame_eq (own : Nat) (records : List OutputRecord) :
    reducedFrame own records = formFrame 6 own (reducedPayload records) := rfl

theorem reducedPayload_length (records : List OutputRecord) :
    (reducedPayload records).length = 1 + 18 * records.length := by
  rw [reducedPayload, List.length_append, flatMap_length_of_forall OutputRecord.bytes_length]
  rfl

theorem reducedPayload_slice {records : List OutputRecord} {r : OutputRecord} {j : Nat}
    (h : records[j]? = some r) : ((reducedPayload records).drop (1 + 18 * j)).take 18 = r.bytes :=
  slice_record OutputRecord.bytes_length [byteOf records.length] h

theorem signed4_length (v : Int) : (signed4 v).length = 4 := rfl

/-- The seven bytes of a READOUT payload before its words. -/
def ReadoutFrame.payloadHead (f : ReadoutFrame) : List Byte :=
  [byteOf f.id, byteOf f.ring.val, byteOf f.part.code, byteOf f.flags] ++ bytes2 f.offset
    ++ [byteOf f.words.length]

/-- The payload of a READOUT frame. -/
def ReadoutFrame.payload (f : ReadoutFrame) : List Byte := f.payloadHead ++ f.words.flatMap signed4

theorem ReadoutFrame.bytes_eq (own : Nat) (f : ReadoutFrame) :
    f.bytes own = formFrame 7 own f.payload := rfl

theorem ReadoutFrame.payload_length (f : ReadoutFrame) : f.payload.length = 7 + 4 * f.words.length := by
  rw [ReadoutFrame.payload, List.length_append, flatMap_length_of_forall signed4_length]
  rfl

theorem ReadoutFrame.flags_lt (f : ReadoutFrame) : f.flags < 256 := by
  rw [ReadoutFrame.flags]
  cases f.last <;> cases f.aborted <;> cases f.gapped <;> decide

theorem RingPart.code_lt (x : RingPart) : x.code < 256 := by cases x <;> decide

theorem ReadoutFrame.readSigned4_word {f : ReadoutFrame} {j : Nat} {v : Int} (hv : WordFits v)
    (h : f.words[j]? = some v) : readSigned4 f.payload (7 + 4 * j) = v :=
  readSigned4_of hv (slice_record signed4_length f.payloadHead h)

end Sys2Proof.Machine

namespace Sys2Proof

open Sys2Proof.Machine


/-- Settles O43: a formed frame is the frame around its payload, every field of a record or of a payload's
head fits the bytes that stand at its position, and the records of one length follow the head in order. -/
theorem formedFramesReadBack : Obligations.FormedFramesReadBack := by
  refine ⟨fun kind own payload hlow hhigh hown hlen => ?_,
    fun r hserial hsubject htime hcount hvalue => ?_,
    fun r a hindex hfirst htime hlow hhigh hdata => ?_, fun own r => ?_,
    fun own first more n hserial hn hmost => ?_, fun own records hmost => ?_,
    fun own f hid hoffset hmost hwords => ?_⟩
  · exact ⟨accepted_formFrame hlow hhigh own hlen, byteAt_formFrame_zero hhigh own payload,
      byteAt_of (by decide) rfl, byteAt_of (by omega) rfl, framePayload_frameAround, frameAround_length⟩
  · have hcount : r.count.getD 0 < 4294967296 := by
      cases hc : r.count with
      | none => decide
      | some n => exact hcount n hc
    have hvalue : WordFits (r.value.getD 0) := by
      cases hv : r.value with
      | none => exact ⟨by decide, by decide⟩
      | some v => exact hvalue v hv
    exact ⟨r.bytes_length, read2_of hserial rfl, byteAt_of r.kind.code_lt rfl, byteAt_of hsubject rfl,
      r.byteAt_channel, (byteAt_of r.presence_lt rfl).trans r.presence_eq, read4_of htime rfl,
      readSigned4_of hvalue rfl, read4_of hcount rfl⟩
  · obtain ⟨-, hmode, hgap⟩ := r.flags_split
    have hvalue : r.first = a := by
      rw [OutputRecord.first]
      obtain hdata | ⟨b, hdata, -⟩ := hdata <;> rw [hdata]
    have hlow_fits (b : Int) (hpeak : r.data = .peak a b) : WordFits b := by
      obtain hdata | ⟨b', hdata, hb⟩ := hdata
      · cases hpeak.symm.trans hdata
      · cases hpeak.symm.trans hdata
        exact hb
    exact ⟨r.bytes_length, r.byteAt_slot, (congrArg (· % 4) r.byteAt_flags).trans hmode,
      (congrArg (· / 4) r.byteAt_flags).trans hgap, OutputRecord.read4_outputIndex hindex,
      OutputRecord.readSigned4_first hvalue ⟨hlow, hhigh⟩,
      fun hd => OutputRecord.read4_firstIndex hd hfirst,
      fun b hd => OutputRecord.readSigned4_low hd (hlow_fits b hd), OutputRecord.read4_time htime⟩
  · exact ⟨r.payload, r.bytes_eq own, by rw [Reply.payload, List.length_append]; rfl, rfl, rfl, rfl,
      byteAt_of r.status.code_lt rfl, rfl⟩
  · subst hn
    exact ⟨eventPayload first more, eventFrame_eq own first more, eventPayload_length first more,
      read2_of hserial rfl, byteAt_of (by omega) rfl,
      fun j r => eventPayload_slice⟩
  · exact ⟨reducedPayload records, reducedFrame_eq own records, reducedPayload_length records,
      byteAt_of (by omega) rfl, fun j r => reducedPayload_slice⟩
  · exact ⟨f.payload, f.bytes_eq own, f.payload_length, byteAt_of hid rfl,
      byteAt_of (f.ring.isLt.trans (by decide)) rfl, byteAt_of f.part.code_lt rfl,
      byteAt_of f.flags_lt rfl, read2_of hoffset rfl, byteAt_of (by omega) rfl,
      fun j v hv => ReadoutFrame.readSigned4_word (hwords v (List.mem_of_getElem? hv)) hv⟩

end Sys2Proof

namespace Sys2Proof

open Sys2Proof.Machine

/-- Settles O1: the queue being nonempty, `step` takes its branch for a front command. -/
theorem stepRunsFrontCommand : Obligations.StepRunsFrontCommand := by
  intro c rest s hqueue
  rw [step, hqueue]

end Sys2Proof

/-! ## The READOUT frames in DT are those of the readout in progress (O13)

The invariant looks at the engine's state and at the READOUT frames of DT. The engine's own operations keep it;
every command that reaches neither leaves both as they are. -/

namespace Sys2Proof

open Sys2Proof.Machine

/-! ### Frames of a readout in a row (R95, R99) -/

theorem framesRun_id {x : ReadoutRecord} : ∀ {fs : List ReadoutFrame} {o : Nat}, framesRun x fs o →
    ∀ f ∈ fs, f.id = x.id
  | _ :: _, _, h, f, hf => by
    obtain ⟨⟨hid, _⟩, hrest⟩ := h
    rcases List.mem_cons.mp hf with rfl | hf
    · exact hid
    · exact framesRun_id hrest f hf

/-- Where LAST stands in DT, the next offset has reached T. -/
theorem framesRun_last {x : ReadoutRecord} : ∀ {fs : List ReadoutFrame} {o : Nat}, framesRun x fs o →
    ∀ f ∈ fs, f.last = true → x.total ≤ x.nextOffset
  | g :: fs, o, h, f, hf, hlast => by
    obtain ⟨⟨_, _, _, _, _, htotal, hend⟩, hrest⟩ := h
    rcases List.mem_cons.mp hf with rfl | hf
    · rw [hend hlast] at hrest
      have hnext : o + f.words.length = x.nextOffset := hrest
      exact hnext ▸ htotal.mp hlast
    · exact framesRun_last hrest f hf hlast

/-- A run looks at no more of the record than the readout's id, part, total words and next offset. -/
theorem framesRun_congr {x y : ReadoutRecord} (hid : y.id = x.id) (hring : y.ring = x.ring)
    (hpart : y.part = x.part) (htotal : y.total = x.total) (hnext : y.nextOffset = x.nextOffset) :
    ∀ {fs : List ReadoutFrame} {o : Nat}, framesRun x fs o → framesRun y fs o
  | [], _, h => h.trans hnext.symm
  | _ :: _, _, ⟨hf, hrest⟩ => by
    refine ⟨?_, framesRun_congr hid hring hpart htotal hnext hrest⟩
    rw [hid, hring, hpart, htotal]
    exact hf

/-! ### What the invariant looks at -/

/-- The state of the engine and the READOUT frames that it has in DT. -/
structure Transfer where
  engine : EngineState
  frames : List ReadoutFrame

def Machine.State.transfer (s : State) : Transfer := ⟨s.readout.engine, readoutFrames s.egress.dt⟩

section
variable {s t : State}

theorem ReadoutSound.of_transfer (hs : ReadoutSound s) (h : t.transfer = s.transfer) : ReadoutSound t := by
  obtain ⟨hengine, hframes⟩ := Transfer.mk.inj h
  simp only [ReadoutSound, hengine, hframes]
  exact hs

theorem readoutSound_of_free (h : s.readout.engine = .free) :
    ReadoutSound s ↔ readoutFrames s.egress.dt = [] := by
  simp only [ReadoutSound, h]

theorem readoutSound_of_terminating {x : TerminatingRecord} (h : s.readout.engine = .terminating x) :
    ReadoutSound s ↔ readoutFrames s.egress.dt = if x.pending then [] else [x.frame] := by
  simp only [ReadoutSound, h]

theorem readoutSound_of_sending {x : ReadoutRecord} (h : s.readout.engine = .sending x) :
    ReadoutSound s ↔
      framesRun x (readoutFrames s.egress.dt) x.wordsSent
      ∧ (readoutFrames s.egress.dt).length = x.framesQueued
      ∧ x.framesQueued ≤ Config.readoutPlaces
      ∧ x.nextOffset ≤ x.total
      ∧ (x.lastQueued = true → x.nextOffset = x.total ∧ x.framesQueued ≠ 0)
      ∧ (x.lastQueued = false → x.nextOffset < x.total ∨ (x.total = 0 ∧ x.framesQueued = 0)) := by
  simp only [ReadoutSound, h]

/-! ### The engine's operations keep it (R94 to R103) -/

theorem nextFrame_words_length (s : State) (x : ReadoutRecord) :
    (s.nextFrame x).words.length = x.frameWords := by
  simp [State.nextFrame, Ring.frameOffsets]

theorem frameWords_eq (x : ReadoutRecord) : x.frameWords = min 48 (x.total - x.nextOffset) := rfl

/-- A production puts a frame behind frames of which none is LAST (R95). -/
theorem ReadoutSound.produceOne (hs : ReadoutSound s) (h : s.produceOne = some t) : ReadoutSound t := by
  rcases State.produceOne_cases h with rfl | ⟨x, hx, _, _, hlast, hplaces, rfl⟩
  · exact hs
  obtain ⟨hrun, hlength, _, hle, _, hmore⟩ := (readoutSound_of_sending hx).mp hs
  have hmore := hmore hlast
  have hnone : ∀ g ∈ readoutFrames s.egress.dt, g.last = false := by
    intro g hg
    have hqueued : x.framesQueued ≠ 0 := hlength ▸ (List.length_pos_of_mem hg).ne'
    by_contra hglast
    have hend := framesRun_last hrun g hg (by simpa using hglast)
    omega
  have hwords := frameWords_eq x
  have hframe := nextFrame_words_length s x
  have hplaced : framesRun x.placed (readoutFrames s.egress.dt ++ [s.nextFrame x]) x.wordsSent := by
    refine framesRun_append hrun hnone ⟨rfl, rfl, rfl, rfl⟩ ⟨rfl, rfl, rfl, rfl, rfl, ?_⟩ ?_
    · rw [hframe]; exact decide_eq_true_iff
    · rw [hframe]; rfl
  refine (readoutSound_of_sending (x := x.placed) rfl).mpr ?_
  simp only [readoutFrames_append, readoutFrames]
  refine ⟨hplaced, ?_, ?_, ?_, fun hl => ?_, fun hl => ?_⟩
  · rw [List.length_append, hlength]; rfl
  · exact hplaces
  · show x.nextOffset + x.frameWords ≤ x.total
    omega
  · have hl : x.total ≤ x.nextOffset + x.frameWords := of_decide_eq_true hl
    refine ⟨?_, Nat.succ_ne_zero _⟩
    show x.nextOffset + x.frameWords = x.total
    omega
  · have hl : ¬ x.total ≤ x.nextOffset + x.frameWords := of_decide_eq_false hl
    exact .inl (Nat.lt_of_not_le hl)

/-- The terminating frame joins a DT without READOUT frames (R102). -/
theorem ReadoutSound.placeTerminator (hs : ReadoutSound s) : ReadoutSound s.placeTerminator := by
  rcases s.placeTerminator_cases with h | ⟨x, hx, hpending, _, _, h⟩ <;> rw [h]
  · exact hs
  · have hnone := (readoutSound_of_terminating hx).mp hs
    rw [if_pos hpending] at hnone
    refine (readoutSound_of_terminating (x := { x with pending := false }) rfl).mpr ?_
    simp only [readoutFrames_append, readoutFrames, hnone]
    rfl

theorem ReadoutSound.examineEngine (hs : ReadoutSound s) (h : s.examineEngine = some t) : ReadoutSound t :=
  State.examineEngine_keeps (fun _ hu => hu.placeTerminator) (fun _ _ hu hv => hu.produceOne hv) hs h

/-- The grant of the READOUT frame that heads DT: the frames behind it run on from what is sent then
(R99, R102). -/
theorem ReadoutSound.engineGranted {u : State} {f : ReadoutFrame} {rest : List DtFrame}
    (hs : ReadoutSound s) (hdt : s.egress.dt = .readout f :: rest)
    (hengine : u.readout.engine = s.readout.engine) (hrest : u.egress.dt = rest) :
    ReadoutSound (u.engineGranted f) := by
  have hframes : readoutFrames s.egress.dt = f :: readoutFrames u.egress.dt := by rw [hdt, hrest]; rfl
  cases hx : s.readout.engine with
  | free =>
    rw [readoutSound_of_free hx, hframes] at hs
    cases hs
  | terminating x =>
    rw [readoutSound_of_terminating hx, hframes] at hs
    split at hs
    · cases hs
    · obtain ⟨rfl, hnil⟩ := List.cons.inj hs
      simp only [State.engineGranted, hengine, hx]
      exact (readoutSound_of_free rfl).mpr hnil
  | sending x =>
    rw [readoutSound_of_sending hx, hframes] at hs
    obtain ⟨⟨⟨_, _, _, _, _, htotal, hend⟩, hrun⟩, hlength, hplaces, hle, hlast, hmore⟩ := hs
    rw [List.length_cons] at hlength
    simp only [State.engineGranted, hengine, hx]
    split
    · next hf => exact (readoutSound_of_free rfl).mpr (hend hf)
    · next hf =>
      have hgranted : framesRun (x.granted f) (readoutFrames u.egress.dt) (x.wordsSent + f.words.length) :=
        framesRun_congr (x := x) (y := x.granted f) rfl rfl rfl rfl rfl hrun
      refine (readoutSound_of_sending (x := x.granted f) rfl).mpr
        ⟨hgranted, ?_, (Nat.sub_le _ _).trans hplaces, hle, fun hl => ?_, fun hl => .inl ?_⟩
      · show (readoutFrames u.egress.dt).length = x.framesQueued - 1
        omega
      · obtain ⟨hdone, _⟩ := hlast hl
        refine ⟨hdone, fun hzero => hf (htotal.mpr ?_)⟩
        have hzero : x.framesQueued - 1 = 0 := hzero
        have hnil : readoutFrames u.egress.dt = [] := List.length_eq_zero_iff.mp (by omega)
        rw [hnil] at hrun
        have hend : x.wordsSent + f.words.length = x.nextOffset := hrun
        omega
      · have hmore := hmore hl
        show x.nextOffset < x.total
        omega

theorem ReadoutSound.grantDt (hs : ReadoutSound s) (h : s.grantDt = some t) : ReadoutSound t := by
  simp only [State.grantDt] at h
  split at h
  · next g rest hdt =>
    split at h
    · refine ReadoutSound.examineEngine ?_ h
      exact hs.engineGranted hdt rfl rfl
    · refine (hs.of_transfer ?_).examineEngine h
      simp only [State.transfer, hdt]
      rfl
  · cases h; exact hs

theorem ReadoutSound.grant {c : Claimant} (hs : ReadoutSound s) (h : s.grant c = some t) :
    ReadoutSound t := by
  cases c with
  | mr => cases h; simp only [State.grantMr]; split <;> exact hs
  | ev => cases h; exact hs
  | fw => cases h; simp only [State.grantFw]; split <;> exact hs
  | dt => exact hs.grantDt h

/-- An emptied DT suits a free engine. -/
theorem readoutSound_of_empty (hengine : s.readout.engine = .free) (hdt : s.egress.dt = []) :
    ReadoutSound s := by
  rw [readoutSound_of_free hengine, hdt]
  rfl

theorem readoutLinkLost_engine (s : State) : s.readoutLinkLost.readout.engine = .free := by
  simp only [State.readoutLinkLost]
  split
  · rfl
  · rfl
  · next h => exact h

/-- Where every READOUT frame of DT has the id, none is left once that readout's frames are removed (R101). -/
theorem readoutFrames_filter {id : Nat} : ∀ {q : List DtFrame}, (∀ f ∈ readoutFrames q, f.id = id) →
    readoutFrames (q.filter fun f => !f.ofReadout id) = []
  | [], _ => rfl
  | .reduced _ :: q, h => readoutFrames_filter (q := q) h
  | .readout f :: q, h => by
    obtain ⟨hf, hq⟩ := List.forall_mem_cons.mp h
    have hgone : (!(DtFrame.readout f).ofReadout id) = false := by simp [DtFrame.ofReadout, hf]
    rw [List.filter_cons_of_neg (by rw [hgone]; nofun)]
    exact readoutFrames_filter hq

theorem ReadoutSound.abortReadout {x : ReadoutRecord} (hs : ReadoutSound s)
    (hx : s.readout.engine = .sending x) : ReadoutSound (s.abortReadout x) := by
  obtain ⟨hrun, _⟩ := (readoutSound_of_sending hx).mp hs
  refine ReadoutSound.placeTerminator ((readoutSound_of_terminating
    (x := ⟨x.id, x.ring, x.part, x.gapped, x.wordsSent, true⟩) rfl).mpr ?_)
  exact readoutFrames_filter (framesRun_id hrun)

/-- An accepted readout has everything left to place (R94). -/
theorem ReadoutSound.acceptReadout (hs : ReadoutSound s) (hfree : s.readout.engine = .free) (k : Fin 8)
    (part : RingPart) : ReadoutSound (s.acceptReadout k part) := by
  have hnone : readoutFrames (s.acceptReadout k part).egress.dt = [] := (readoutSound_of_free hfree).mp hs
  refine (readoutSound_of_sending
    (x := (s.rings.get k).acceptRecord k part s.readout.nextId) rfl).mpr ?_
  rw [hnone]
  refine ⟨rfl, rfl, Nat.zero_le _, Nat.zero_le _, nofun, fun _ => ?_⟩
  exact (Nat.eq_zero_or_pos _).symm.imp id fun h => ⟨h, rfl⟩

theorem engine_free_of_accepted {k : Fin 8} {part : RingPart}
    (h : s.readRingStatus k part = .accepted) : s.readout.engine = .free := by
  simp only [State.readRingStatus] at h
  split_ifs at h with hbusy
  exact not_not.mp hbusy

theorem ReadoutSound.readRing {k : Fin 8} {part : RingPart} {status : Status} {results : List Byte}
    (hs : ReadoutSound s) (h : s.readRing k part = some (status, results, t)) : ReadoutSound t := by
  simp only [State.readRing] at h
  split at h
  · next haccepted =>
    obtain ⟨v, hv, heq⟩ := Option.map_eq_some_iff.mp h
    cases heq
    exact (hs.acceptReadout (engine_free_of_accepted haccepted) k part).examineEngine hv
  · cases h; exact hs

/-- At a RESTART the capture unit frees the engine as DT is emptied (R104, R148). -/
theorem ReadoutSound.restartShare (hs : ReadoutSound s) (b : Block) : ReadoutSound (s.restartShare b) := by
  cases b with
  | capture => exact readoutSound_of_empty rfl rfl
  | _ => exact hs

end

end Sys2Proof

/-! ### Every other command leaves the engine and its frames as they are -/

namespace Sys2Proof.Machine

@[simp] theorem transfer_setPort (s : State) (p : PortId) (x : Port) :
    (s.setPort p x).transfer = s.transfer := by
  cases p <;> rfl

@[simp] theorem transfer_chargeMalformed (s : State) (p : PortId) :
    (s.chargeMalformed p).transfer = s.transfer :=
  transfer_setPort _ _ _

@[simp] theorem transfer_enterUp (s : State) (p : PortId) : (s.enterUp p).transfer = s.transfer := by
  cases p <;> rfl

@[simp] theorem transfer_leaveUp (s : State) (p : PortId) : (s.leaveUp p).transfer = s.transfer := by
  cases p <;> rfl

@[simp] theorem transfer_receiveFlow (s : State) (p : PortId) (paused : Bool) :
    (s.receiveFlow p paused).transfer = s.transfer := by
  simp only [State.receiveFlow]
  split
  · simp
  · split <;> simp
  · rfl

@[simp] theorem transfer_placeOb (s : State) (bytes : List Byte) :
    (s.placeOb bytes).transfer = s.transfer := by
  rw [placeOb_eq]; rfl

@[simp] theorem transfer_arriveRequest (s : State) (payload : List Byte) :
    (s.arriveRequest payload).transfer = s.transfer := by
  rw [arriveRequest_eq]; rfl

@[simp] theorem transfer_handOn (s : State) (p : PortId) (bytes : List Byte) :
    (s.handOn p bytes).transfer = s.transfer := by
  cases p
  · simp only [State.handOn]; split <;> rfl
  · simp only [State.handOn]; split_ifs <;> simp

@[simp] theorem transfer_takeFrame (s : State) (p : PortId) (bytes : List Byte) :
    (s.takeFrame p bytes).transfer = s.transfer := by
  simp only [State.takeFrame]
  split_ifs <;> simp

@[simp] theorem transfer_offerFw (s : State) (bytes : List Byte) :
    (s.offerFw bytes).transfer = s.transfer := by
  rcases s.offerFw_cases bytes with ⟨_, h⟩ | ⟨_, _, h⟩ | ⟨_, _, h⟩ <;> rw [h] <;> rfl

/-- A REDUCED frame joins DT as no READOUT frame (R154). -/
@[simp] theorem transfer_closeReduced (s : State) (records : List OutputRecord) :
    (s.closeReduced records).transfer = s.transfer := by
  rcases s.closeReduced_cases records with ⟨_, h⟩ | ⟨_, h⟩ <;> rw [h]
  · simp [State.transfer, readoutFrames]
  · rfl

@[simp] theorem transfer_assemble (s : State) (r : OutputRecord) :
    (s.assemble r).transfer = s.transfer := by
  simp only [State.assemble]
  split_ifs
  · rfl
  · exact transfer_closeReduced _ _
  · rfl
  · rfl

theorem OnlyOffered.transfer {s t : State} (h : OnlyOffered s t) : t.transfer = s.transfer := by
  rw [h.rest]; rfl

@[simp] theorem transfer_takeSampleFrame (s : State) (bytes : List Byte) :
    (s.takeSampleFrame bytes).transfer = s.transfer := by
  simp only [State.takeSampleFrame]
  split
  · next f n _ _ =>
    split_ifs
    · simp
    · rfl
    · rw [handCandidate_eq]
      exact (processed_onlyOffered s n f).transfer
  · simp

theorem transfer_unseeNodes (s : State) : s.unseeNodes.transfer = s.transfer := rfl

@[simp] theorem transfer_slotTakesSample (s : State) (k : Fin 16) (x : Slot) (v : Int) (i : Nat) :
    (s.slotTakesSample k x v i).transfer = s.transfer := by
  simp only [State.slotTakesSample, State.deliverOutput]
  split
  · rfl
  · split <;> rfl

@[simp] theorem transfer_slotTakesMark (s : State) (k : Fin 16) (x : Slot) :
    (s.slotTakesMark k x).transfer = s.transfer := by
  simp only [State.slotTakesMark]
  split
  · rfl
  · split <;> rfl

@[simp] theorem transfer_ruleTakesValue (s : State) (k : Fin 32) (r : Rule) (v : Int) (i : Nat) :
    (s.ruleTakesValue k r v i).transfer = s.transfer := by
  have hfreeze : ∀ (u : State) g, (u.sendFreeze k g).transfer = u.transfer := fun u g => by
    cases g <;> rfl
  have hstart : ∀ (u : State) j, (u.sendStart j).transfer = u.transfer := fun u j => by cases j <;> rfl
  simp only [State.ruleTakesValue]
  split
  · split
    · rfl
    · simp only [State.ruleAsserts, hstart, hfreeze]
      split <;> rfl
    · simp only [State.ruleReleases]
      split <;> rfl
  · rfl

@[simp] theorem transfer_ringTakesFreeze (s : State) (k : Fin 8) (r : Ring) (t : Trigger) :
    (s.ringTakesFreeze k r t).transfer = s.transfer := by
  simp only [State.ringTakesFreeze]
  split <;> rfl

/-! #### Requests (R128 to R142) -/

@[simp] theorem transfer_repliedOnly (s : State) (q : Request) (r : Reply) :
    (repliedOnly s q r).transfer = s.transfer := by
  rw [repliedOnly_eq]; rfl

@[simp] theorem transfer_answered (s : State) (q : Request) (status : Status) (results : List Byte) :
    (answered s q status results).transfer = s.transfer := by
  rw [answered_eq]; rfl

theorem transfer_request {s t : State} {code : Nat} {run : List Byte → State → Option Answer}
    (h : s.request code run = .next t)
    (hr : ∀ args status results u, run args s = some (status, results, u) → u.transfer = s.transfer) :
    t.transfer = s.transfer := by
  rcases State.request_next h with rfl | ⟨q, r, _, rfl⟩ | ⟨q, status, results, u, hu, rfl⟩
  · rfl
  · simp
  · rw [transfer_answered]; exact hr _ _ _ _ hu

theorem transfer_gather {s t : State} {code : Nat} {blocks : List Block} {work : Block → State → State}
    {answer : State → Answer} (h : s.gather code blocks work answer = .next t)
    (hw : ∀ b, (work b s).transfer = s.transfer) (ha : (answer s).2.2.transfer = s.transfer) :
    t.transfer = s.transfer := by
  rcases State.gather_next h with rfl | ⟨q, r, _, rfl⟩ | ⟨b, rfl⟩ | ⟨q, rfl⟩
  · rfl
  · simp
  · exact hw b
  · rw [transfer_answered]; exact ha

theorem transfer_statusShare (s : State) (b : Block) : (s.statusShare b).transfer = s.transfer := by
  cases b <;> rfl

theorem transfer_clearShare (s : State) (b : Block) : (s.clearShare b).transfer = s.transfer := by
  cases b <;> rfl

theorem transfer_atIndex {n : Nat} {s : State} {op : Fin n → Status × State} {i : Option (Fin n)}
    (ho : ∀ k, (op k).2.transfer = s.transfer) : (atIndex i s op).2.transfer = s.transfer :=
  atIndex_keeps (P := fun u => u.transfer = s.transfer) rfl ho

theorem transfer_writeChecked {α : Type} {x : TableId} {enabled : Bool} {mask : Nat} {new : Option α}
    {fits : α → Bool} {s : State} {put : α → State} (hput : ∀ y, (put y).transfer = s.transfer) :
    (writeChecked x enabled mask new fits s put).2.transfer = s.transfer :=
  writeChecked_keeps (P := fun u => u.transfer = s.transfer) rfl fun y _ _ _ => hput y

theorem transfer_writeEntry (s : State) (x : TableId) (i mask : Nat) (v : List Byte) :
    (s.writeEntry x i mask v).2.transfer = s.transfer := by
  cases x with
  | channel | slot | rule | ring => exact transfer_atIndex fun _ => transfer_writeChecked fun _ => rfl
  | node => rfl
  | global =>
    simp only [State.writeEntry]
    split
    · exact transfer_writeChecked fun _ => rfl
    · rfl

theorem transfer_enableEntry (s : State) (x : TableId) (i : Nat) :
    (s.enableEntry x i).2.transfer = s.transfer := by
  cases x with
  | channel => refine transfer_atIndex fun c => ?_; simp only [State.enableChannel]; split_ifs <;> rfl
  | slot => refine transfer_atIndex fun k => ?_; simp only [State.enableSlot]; split_ifs <;> rfl
  | rule => refine transfer_atIndex fun k => ?_; simp only [State.enableRule]; split_ifs <;> rfl
  | ring => refine transfer_atIndex fun k => ?_; simp only [State.enableRing]; split_ifs <;> rfl
  | node | global => rfl

theorem transfer_disableEntry (s : State) (x : TableId) (i : Nat) :
    (s.disableEntry x i).2.transfer = s.transfer := by
  cases x with
  | channel => refine transfer_atIndex fun c => ?_; simp only [State.disableChannel]; split_ifs <;> rfl
  | slot => refine transfer_atIndex fun k => ?_; simp only [State.disableSlot]; split_ifs <;> rfl
  | rule => refine transfer_atIndex fun k => ?_; simp only [State.disableRule]; split_ifs <;> rfl
  | ring => refine transfer_atIndex fun k => ?_; simp only [State.disableRing]; split_ifs <;> rfl
  | node | global => rfl

theorem transfer_releaseHalf (s : State) (k : Fin 8) (h : HalfId) :
    (s.releaseHalf k h).2.transfer = s.transfer := by
  simp only [State.releaseHalf]
  split_ifs
  · rfl
  · rfl
  · split <;> rfl

theorem transfer_flushRing (s : State) (k : Fin 8) : (s.flushRing k).2.transfer = s.transfer := by
  simp only [State.flushRing]
  split_ifs
  · rfl
  · rfl
  · split
    · split <;> rfl
    · rfl

theorem transfer_freezeRing (s : State) (k : Fin 8) : (s.freezeRing k).2.transfer = s.transfer := by
  simp only [State.freezeRing]
  split_ifs
  · rfl
  · rfl
  · rfl
  · exact transfer_ringTakesFreeze _ _ _ _

theorem transfer_rearmRing (s : State) (k : Fin 8) : (s.rearmRing k).2.transfer = s.transfer := by
  simp only [State.rearmRing]
  split_ifs
  · rfl
  · rfl
  · split <;> rfl

theorem transfer_startSlot (s : State) (k : Fin 16) : (s.startSlot k).2.transfer = s.transfer := by
  simp only [State.startSlot]
  split <;> rfl

/-! #### The commands -/

/-- The commands that reach the engine or a READOUT frame of DT. -/
def reachesReadout : Instr → Bool
  | .hardReset _ _ => true
  | .arbiterGrant => true
  | .readoutFrameProduce => true
  | .terminatingFramePlace => true
  | .cPortLeavingUpEgress => true
  | .cPortComingUpEgress => true
  | .readRing => true
  | .abortRead => true
  | .restart => true
  | _ => false

theorem exec_keeps_transfer {i : Instr} {s t : State} (hi : reachesReadout i = false)
    (h : exec i s = .next t) : t.transfer = s.transfer := by
  cases i with
  | hardReset | arbiterGrant | readoutFrameProduce | terminatingFramePlace | cPortLeavingUpEgress
    | cPortComingUpEgress | readRing | abortRead | restart => cases hi
  | initialisationComplete =>
    simp only [exec, execInitialisationComplete] at h
    split at h <;> cases h <;> rfl
  | receiveTrain p heard =>
    simp only [exec, execReceiveTrain] at h
    split at h
    · cases h; rfl
    · split at h <;> cases h <;> simp
    · split at h <;> cases h <;> simp
  | undecodableSymbol p =>
    simp only [exec, execUndecodableSymbol] at h
    split at h <;> cases h <;> simp
  | receiveHold p | receiveGo p => cases h; simp
  | lossOfLock p =>
    simp only [exec, execLossOfLock] at h
    split at h <;> cases h <;> simp
  | frameReceived p bytes =>
    simp only [exec, execFrameReceived] at h
    split at h <;> cases h <;> simp
  | holdSentChange p =>
    simp only [exec, execHoldSentChange] at h
    split at h <;> cases h <;> simp
  | flowSymbolRepeat p =>
    simp only [exec, execFlowSymbolRepeat] at h
    split at h <;> cases h <;> simp
  | frameSendComplete p =>
    simp only [exec, execFrameSendComplete] at h
    split at h <;> cases h <;> simp
  | sampleFrameTaken =>
    simp only [exec, execSampleFrameTaken] at h
    split at h <;> cases h
    · exact (transfer_takeSampleFrame _ _).trans rfl
    · rfl
  | fPortLeavingUpClassifier =>
    simp only [exec, execFPortLeavingUpClassifier] at h
    split at h <;> obtain rfl := Host.Outcome.next.inj h
    · rw [transfer_unseeNodes, (State.placeMarks_onlyOffered _ _).transfer,
        (State.passBy_onlyOffered _ _).transfer]
      rfl
    · rfl
  | fwPlace way =>
    cases way <;> simp only [exec, execFwPlace] at h
    · split at h <;> cases h
      · exact (transfer_offerFw _ _).trans rfl
      · rfl
    · split at h
      · split at h <;> cases h
        · exact (transfer_offerFw _ _).trans rfl
        · rfl
      · cases h; rfl
  | slotTakeSample k =>
    simp only [exec, execSlotTakeSample] at h
    split at h <;> cases h
    · simp
    · rfl
  | slotTakeGapMark k =>
    simp only [exec, execSlotTakeGapMark] at h
    split at h <;> cases h
    · simp
    · rfl
  | slotStart k =>
    simp only [exec, execSlotStart] at h
    split at h <;> cases h <;> rfl
  | ruleTakeValue k =>
    simp only [exec, execRuleTakeValue] at h
    split at h
    · cases h; rfl
    · split at h <;> cases h
      · simp
      · rfl
  | ruleTakeGapMark k =>
    simp only [exec, execRuleTakeGapMark] at h
    split at h <;> cases h <;> rfl
  | ringTakeItem k =>
    simp only [exec, execRingTakeItem] at h
    split at h
    · cases h; rfl
    · cases h; rfl
    · obtain ⟨_, rfl⟩ := State.ringTakesWords_eq_some (captureOutcome_eq_next.mp h)
      rfl
  | ringTakeGapMark k =>
    simp only [exec, execRingTakeGapMark] at h
    split at h <;> cases h <;> rfl
  | ringFreeze k rule =>
    simp only [exec, execRingFreeze] at h
    split at h <;> cases h
    · simp
    · rfl
  | assemblerTakeRecord k =>
    simp only [exec, execAssemblerTakeRecord] at h
    split at h <;> cases h
    · exact (transfer_assemble _ _).trans rfl
    · rfl
  | reducedHoldExpiry =>
    simp only [exec, execReducedHoldExpiry] at h
    split at h <;> cases h
    · simp
    · rfl
  | eventEnqueue r =>
    simp only [exec, execEventEnqueue] at h
    split at h <;> cases h <;> rfl
  | retransmitTimeout =>
    simp only [exec, execRetransmitTimeout] at h
    split at h <;> cases h <;> rfl
  | deliverySuspend =>
    simp only [exec, execDeliverySuspend] at h
    split at h <;> cases h <;> rfl
  | deliveryResume =>
    simp only [exec, execDeliveryResume] at h
    split at h <;> cases h <;> rfl
  | obSend =>
    simp only [exec, execObSend] at h
    split at h
    · split at h <;> cases h <;> rfl
    · cases h; rfl
  | fPortLeavingUpEgress =>
    simp only [exec, execFPortLeavingUpEgress] at h
    split at h <;> cases h <;> rfl
  | ident | setTime =>
    simp only [exec, execIdent, execSetTime] at h
    exact transfer_request h fun _ _ _ _ hu => by cases hu; rfl
  | readEntry =>
    simp only [exec, execReadEntry] at h
    refine transfer_request h fun args _ _ u hu => ?_
    split at hu <;> cases hu <;> rfl
  | writeEntry =>
    simp only [exec, execWriteEntry] at h
    refine transfer_request h fun args _ _ u hu => ?_
    split at hu <;> cases hu
    · exact transfer_writeEntry s _ _ _ _
    · rfl
  | enable =>
    simp only [exec, execEnable] at h
    refine transfer_request h fun args _ _ u hu => ?_
    split at hu <;> cases hu
    · exact transfer_enableEntry s _ _
    · rfl
  | disable =>
    simp only [exec, execDisable] at h
    refine transfer_request h fun args _ _ u hu => ?_
    split at hu <;> cases hu
    · exact transfer_disableEntry s _ _
    · rfl
  | readStatus => exact transfer_gather h (transfer_statusShare s) rfl
  | clearCounters => exact transfer_gather h (transfer_clearShare s) rfl
  | releaseHalf =>
    simp only [exec, execReleaseHalf] at h
    refine transfer_request h fun args _ _ u hu => ?_
    split at hu <;> cases hu
    · exact transfer_releaseHalf s _ _
    · rfl
  | flushRing =>
    simp only [exec, execFlushRing] at h
    exact transfer_request h fun _ _ _ _ hu => by cases hu; exact transfer_atIndex (transfer_flushRing s)
  | freezeRing =>
    simp only [exec, execFreezeRing] at h
    exact transfer_request h fun _ _ _ _ hu => by cases hu; exact transfer_atIndex (transfer_freezeRing s)
  | rearmRing =>
    simp only [exec, execRearmRing] at h
    exact transfer_request h fun _ _ _ _ hu => by cases hu; exact transfer_atIndex (transfer_rearmRing s)
  | startSlot =>
    simp only [exec, execStartSlot] at h
    exact transfer_request h fun _ _ _ _ hu => by cases hu; exact transfer_atIndex (transfer_startSlot s)
  | eventAck | eventResync =>
    simp only [exec, execEventAck, execEventResync] at h
    refine transfer_request h fun args _ _ u hu => ?_
    split at hu <;> cases hu <;> rfl
  | unknownCode =>
    simp only [exec, execUnknownCode] at h
    split at h
    · split at h
      · cases h; rfl
      · rcases State.serve_cases (captureOutcome_eq_next.mp h) with ⟨r, _, rfl⟩ | ⟨_, _, u, hu, rfl⟩
        · simp
        · cases hu; simp
    · cases h; rfl
  | requestTooShort =>
    simp only [exec, execRequestTooShort] at h
    split at h
    · split at h <;> cases h
      · exact transfer_chargeMalformed s .c
      · rfl
    · cases h; rfl

end Sys2Proof.Machine

/-! ### Every step -/

namespace Sys2Proof

open Sys2Proof.Machine

section
variable {s t : State} (hs : ReadoutSound s)
include hs

/-- A request keeps the invariant where its execution does: a reply reaches neither the engine nor DT. -/
theorem ReadoutSound.request {code : Nat} {run : List Byte → State → Option Answer}
    (h : s.request code run = .next t)
    (hr : ∀ args status results u, run args s = some (status, results, u) → ReadoutSound u) :
    ReadoutSound t := by
  rcases State.request_next h with rfl | ⟨q, r, _, rfl⟩ | ⟨q, status, results, u, hu, rfl⟩
  · exact hs
  · exact hs.of_transfer (transfer_repliedOnly s q r)
  · exact (hr _ _ _ _ hu).of_transfer (transfer_answered u q status results)

theorem ReadoutSound.gather {code : Nat} {blocks : List Block} {work : Block → State → State}
    {answer : State → Answer} (h : s.gather code blocks work answer = .next t)
    (hw : ∀ b, ReadoutSound (work b s)) (ha : ReadoutSound (answer s).2.2) : ReadoutSound t := by
  rcases State.gather_next h with rfl | ⟨q, r, _, rfl⟩ | ⟨b, rfl⟩ | ⟨q, rfl⟩
  · exact hs
  · exact hs.of_transfer (transfer_repliedOnly s q r)
  · exact (hw b).of_transfer rfl
  · exact ha.of_transfer (transfer_answered _ q _ _)

theorem ReadoutSound.exec {i : Instr} (h : exec i s = .next t) : ReadoutSound t := by
  by_cases hi : reachesReadout i = false
  · exact hs.of_transfer (exec_keeps_transfer hi h)
  cases i with
  | hardReset cause straps =>
    simp only [Machine.exec, execHardReset] at h
    split at h <;> cases h
    · exact readoutSound_of_empty rfl rfl
    · exact hs
  | arbiterGrant =>
    simp only [Machine.exec, execArbiterGrant] at h
    split at h
    · split at h
      · exact hs.grant (captureOutcome_eq_next.mp h)
      · cases h; exact hs
    · cases h; exact hs
  | readoutFrameProduce => exact hs.produceOne (captureOutcome_eq_next.mp h)
  | terminatingFramePlace => cases h; exact hs.placeTerminator
  | cPortLeavingUpEgress =>
    simp only [Machine.exec, execCPortLeavingUpEgress] at h
    split at h <;> cases h
    · exact readoutSound_of_empty (readoutLinkLost_engine _) rfl
    · exact hs
  | cPortComingUpEgress =>
    simp only [Machine.exec, execCPortComingUpEgress] at h
    split at h
    · split at h
      · refine ReadoutSound.examineEngine ?_ (captureOutcome_eq_next.mp h)
        exact hs
      · cases h; exact hs
    · cases h; exact hs
  | readRing =>
    simp only [Machine.exec, execReadRing] at h
    refine hs.request h fun args _ _ u hu => ?_
    split at hu
    · exact hs.readRing hu
    · cases hu; exact hs
  | abortRead =>
    simp only [Machine.exec, execAbortRead] at h
    refine hs.request h fun args _ _ u hu => ?_
    split at hu <;> cases hu
    · next x hx => exact hs.abortReadout hx
    · exact hs
  | restart => exact hs.gather h hs.restartShare ((hs.restartShare .events).of_transfer rfl)
  | _ => exact absurd rfl hi

end

/-- Settles O13: the engine's operations put frames behind those in DT and take them from its head, and
every other command leaves the engine and its frames as they are. -/
theorem readoutStaysSound : Obligations.ReadoutStaysSound := by
  intro s t hs h
  rcases step_cases h with rfl | ⟨c, rest, _, h⟩
  · exact hs
  · have hrest : ReadoutSound { s with pending := rest } := hs
    exact hrest.exec h

end Sys2Proof

/-! ## The engine places frames and takes grants and the changes of the link (O46, O47, O48) -/

namespace Sys2Proof

open Sys2Proof.Machine

/-! ### A part is claimed and given back (R94, R99, R101, R103) -/

theorem claimPart_half {r : Ring} {part : RingPart} {h : HalfId} (hp : part.half = some h) :
    r.claimPart part = { r with
      stream := r.stream.setHalf h { r.stream.half h with state := .reading } } := by
  simp only [Ring.claimPart, hp, StreamState.markHalf, Bool.or_false]

/-- A half whose readout has not completed keeps its read-once flag (R101, R103). -/
theorem givePart_half {r : Ring} {part : RingPart} {h : HalfId} (hp : part.half = some h) :
    r.givePart part false = { r with
      stream := r.stream.setHalf h { r.stream.half h with state := .full } } := by
  simp only [Ring.givePart, hp, StreamState.markHalf, Bool.or_false]

/-- A completed readout sets the read-once flag of its half (R99). -/
theorem givePart_half_completed {r : Ring} {part : RingPart} {h : HalfId} (hp : part.half = some h) :
    r.givePart part true = { r with
      stream := r.stream.setHalf h { r.stream.half h with state := .full, readOnce := true } } := by
  simp only [Ring.givePart, hp, StreamState.markHalf, Bool.or_true]

theorem givePart_snapshot {r : Ring} {part : RingPart} (hp : part.half = none) (completed : Bool) :
    r.givePart part completed = { r with snapshot := { r.snapshot with state := .frozen } } := by
  simp only [Ring.givePart, hp]

/-! ### What the engine finds to place (R95, R102) -/

section
variable {s : State}

theorem dtFree_of_room (hheld : s.egress.held = false) (hroom : s.egress.dt.length < 16) :
    s.egress.dtFree = true := by
  simp [Egress.dtFree, hheld, Config.dtCapacity, hroom]

/-- The next frame joins DT where DT and the record have room for it (R95). -/
theorem produceOne_sending {x : ReadoutRecord} (hx : s.readout.engine = .sending x)
    (hheld : s.egress.held = false) (hroom : s.egress.dt.length < 16) (hplaces : x.framesQueued < 8)
    (hlast : x.lastQueued = false)
    (hmemory : offsetsInMemory ((s.rings.get x.ring).frameOffsets x) = true) :
    s.produceOne = some { s with
      egress := { s.egress with dt := s.egress.dt ++ [.readout (s.nextFrame x)] }
      readout := { s.readout with engine := .sending x.placed } } := by
  have hwants : x.wantsFrame = true := by
    simp [ReadoutRecord.wantsFrame, hlast, Config.readoutPlaces, hplaces]
  simp only [State.produceOne, hx, dtFree_of_room hheld hroom, hwants, hmemory, Bool.and_true, if_true]
  rfl

theorem produceUpTo_of_self (h : s.produceOne = some s) : ∀ n, s.produceUpTo n = some s
  | 0 => rfl
  | n + 1 => by rw [State.produceUpTo, h, Option.bind_some, produceUpTo_of_self h n]

/-- A TERMINATING engine places no words (R102). -/
theorem produceUpTo_of_terminating {x : TerminatingRecord} (h : s.readout.engine = .terminating x)
    (n : Nat) : s.produceUpTo n = some s :=
  produceUpTo_of_self (by simp only [State.produceOne, h]) n

theorem placeTerminator_pending {x : TerminatingRecord} (hx : s.readout.engine = .terminating x)
    (hpending : x.pending = true) (hheld : s.egress.held = false) (hroom : s.egress.dt.length < 16) :
    s.placeTerminator = { s with
      egress := { s.egress with dt := s.egress.dt ++ [.readout x.frame] }
      readout := { s.readout with engine := .terminating { x with pending := false } } } := by
  simp only [State.placeTerminator, hx, hpending, dtFree_of_room hheld hroom, Bool.and_true, if_true]
  rfl

theorem examineEngine_pending {x : TerminatingRecord} (hx : s.readout.engine = .terminating x)
    (hpending : x.pending = true) (hheld : s.egress.held = false) (hroom : s.egress.dt.length < 16) :
    s.examineEngine = some { s with
      egress := { s.egress with dt := s.egress.dt ++ [.readout x.frame] }
      readout := { s.readout with engine := .terminating { x with pending := false } } } := by
  rw [State.examineEngine, placeTerminator_pending hx hpending hheld hroom]
  exact produceUpTo_of_terminating rfl _

/-- Nothing is left to place where the terminating frame stands in DT. -/
theorem examineEngine_terminating {x : TerminatingRecord} (hx : s.readout.engine = .terminating x)
    (hpending : x.pending = false) : s.examineEngine = some s := by
  have hplaced : s.placeTerminator = s :=
    State.placeTerminator_eq_self fun y hy => by
      rw [hx] at hy
      cases hy
      exact hpending
  rw [State.examineEngine, hplaced]
  exact produceUpTo_of_terminating hx _

end

/-! ### READOUT_FRAME_PRODUCE and TERMINATING_FRAME_PLACE (O46) -/

theorem readoutOffset_eq (r : Ring) (x : ReadoutRecord) (k : Nat) : r.readoutOffset x k =
    if x.part = .snapshot then r.base + (x.start + k) % r.length else x.start + k := by
  cases hp : x.part <;> simp [Ring.readoutOffset, hp]

theorem frameOffsets_eq (r : Ring) (x : ReadoutRecord) : r.frameOffsets x =
    (List.range (min 48 (x.total - x.nextOffset))).map fun j =>
      if x.part = .snapshot then r.base + (x.start + (x.nextOffset + j)) % r.length
      else x.start + (x.nextOffset + j) :=
  List.map_congr_left fun _ _ => readoutOffset_eq r x _

theorem offsetsInMemory_iff {os : List Nat} : offsetsInMemory os = true ↔ ∀ o ∈ os, o < 65536 := by
  simp [offsetsInMemory, Config.captureWords]

/-- Settles O46: the offsets of the next frame's words are those of R96 and R97, and they lie in capture
memory. -/
theorem readoutFramesAreProduced : Obligations.ReadoutFramesAreProduced := by
  refine ⟨fun s x n r hx hheld hroom hplaces hlast hn hr hmemory => ?_,
    fun s x hx hpending hheld hroom => ?_⟩
  · subst hn hr
    have hin : offsetsInMemory ((s.rings.get x.ring).frameOffsets x) = true := by
      rw [offsetsInMemory_iff, frameOffsets_eq, List.forall_mem_map]
      exact fun j hj => hmemory j (List.mem_range.mp hj)
    refine ⟨_, s.nextFrame x, congrArg captureOutcome
      (produceOne_sending hx hheld hroom hplaces hlast hin), rfl, rfl, rfl, rfl, ?_, rfl, rfl,
      decide_eq_true_iff, rfl⟩
    rw [State.nextFrame, frameOffsets_eq, List.map_map]
    rfl
  · exact congrArg Host.Outcome.next (placeTerminator_pending hx hpending hheld hroom)

/-! ### The grant of DT (O47) -/

section
variable {s : State}

/-- The state after DT's oldest frame has left and been sent, before the engine takes the grant (R156, R159). -/
def dtGranted (s : State) (g : DtFrame) (rest : List DtFrame) : State :=
  { s with
    egress := { s.egress with dt := rest, streak := 0 }
    cPort := s.cPort.beginFrame (g.bytes s.ownNode) }

theorem grant_dt_readout {f : ReadoutFrame} {rest : List DtFrame} (h : s.egress.dt = .readout f :: rest) :
    s.grant .dt = ((dtGranted s (.readout f) rest).engineGranted f).examineEngine := by
  simp only [State.grant, State.grantDt, h]
  rfl

theorem grant_dt_other {records : List OutputRecord} {rest : List DtFrame}
    (h : s.egress.dt = .reduced records :: rest) :
    s.grant .dt = (dtGranted s (.reduced records) rest).examineEngine := by
  simp only [State.grant, State.grantDt, h]
  rfl

theorem engineGranted_last {x : ReadoutRecord} {f : ReadoutFrame} (hx : s.readout.engine = .sending x)
    (hf : f.last = true) : s.engineGranted f = ((s.givePart x true).setEngine .free).countCompleted := by
  simp only [State.engineGranted, hx, hf, if_true]

theorem engineGranted_before_last {x : ReadoutRecord} {f : ReadoutFrame}
    (hx : s.readout.engine = .sending x) (hf : f.last = false) :
    s.engineGranted f = s.setEngine (.sending (x.granted f)) := by
  simp only [State.engineGranted, hx, hf, Bool.false_eq_true, if_false]

theorem engineGranted_aborted {x : TerminatingRecord} {f : ReadoutFrame}
    (hx : s.readout.engine = .terminating x) (hf : f.aborted = true) :
    s.engineGranted f = s.setEngine .free := by
  simp only [State.engineGranted, hx, hf, if_true]

/-- The whole of a grant that completes a readout (R99). -/
theorem grant_dt_last {x : ReadoutRecord} {f : ReadoutFrame} {rest : List DtFrame}
    (hdt : s.egress.dt = .readout f :: rest) (hx : s.readout.engine = .sending x) (hf : f.last = true) :
    s.grant .dt = some (((dtGranted s (.readout f) rest).givePart x true).setEngine .free).countCompleted := by
  have hengine : (dtGranted s (.readout f) rest).readout.engine = .sending x := hx
  rw [grant_dt_readout hdt, engineGranted_last hengine hf]
  exact examineEngine_of_free rfl

/-- What the engine places in SENDING once a frame has left DT. -/
theorem examineEngine_after_grant {g : DtFrame} {rest : List DtFrame} {z : ReadoutRecord}
    (hheld : s.egress.held = false) (hmemory : ReadoutInMemory s z) :
    ∃ frames y, PlacesFrames s z y (16 - rest.length) frames
      ∧ ((dtGranted s g rest).setEngine (.sending z)).examineEngine = some { dtGranted s g rest with
        egress := { (dtGranted s g rest).egress with dt := rest ++ frames.map .readout }
        readout := { s.readout with engine := .sending y } } :=
  State.examineEngine_sending (s := (dtGranted s g rest).setEngine (.sending z)) rfl hheld hmemory

end

/-- Settles O47: what the engine makes of the frame that is granted, and then what it finds to place. -/
theorem readoutFrameGrants : Obligations.ReadoutFrameGrants := by
  intro s s₀ g rest hup hidle hpaused hheld hchanges hmr hev hdue hdt hs₀
  have hready : s.events.ready s.management.global.eventWindow = false := by
    rw [← Bool.not_eq_true, s.evReady_iff]
    exact hev
  have hgrants : ∀ {t : State}, s.grant .dt = some t → exec .arbiterGrant s = .next t :=
    exec_arbiterGrant (arbiterFree_of_idle hup hidle hpaused hheld hchanges)
      (arbiterChoice_dt hmr hready hdue (by simp [hdt]))
  obtain rfl : s₀ = dtGranted s g rest := hs₀
  refine ⟨fun f x h hg hx hf hp => ?_, fun f x hg hx hf hp => ?_, fun x z hx hmemory hz => ?_,
    fun f x hg hx hf => ?_, fun records x hg hx hpending => ?_,
    fun records x hg hx hpending hroom => ?_⟩
  · subst hg
    rw [hgrants (grant_dt_last hdt hx hf), ← givePart_half_completed hp]
    rfl
  · subst hg
    rw [hgrants (grant_dt_last hdt hx hf), ← givePart_snapshot (RingPart.half_eq_none.mpr hp) true]
    rfl
  · have hengine : (dtGranted s g rest).readout.engine = .sending x := hx
    rcases hz with ⟨f, rfl, hf, rfl⟩ | ⟨records, rfl, rfl⟩
    · obtain ⟨frames, y, hplaces, hexamine⟩ :=
        examineEngine_after_grant (g := .readout f) (rest := rest) (z := x.granted f) hheld hmemory
      refine ⟨frames, y, hplaces, hgrants ?_⟩
      rw [grant_dt_readout hdt, engineGranted_before_last hengine hf]
      exact hexamine
    · obtain ⟨frames, y, hplaces, hexamine⟩ :=
        State.examineEngine_sending (s := dtGranted s (.reduced records) rest) hx hheld hmemory
      exact ⟨frames, y, hplaces, hgrants ((grant_dt_other hdt).trans hexamine)⟩
  · subst hg
    have hengine : (dtGranted s (.readout f) rest).readout.engine = .terminating x := hx
    refine hgrants ?_
    rw [grant_dt_readout hdt, engineGranted_aborted hengine hf]
    exact examineEngine_of_free rfl
  · subst hg
    exact hgrants ((grant_dt_other hdt).trans (examineEngine_terminating (x := x) hx hpending))
  · subst hg
    exact hgrants ((grant_dt_other hdt).trans (examineEngine_pending (x := x) hx hpending hheld hroom))

/-! ### The C-port's changes reach the engine and the scheduler (O48) -/

section
variable {s : State}

theorem exec_cPortLeavingUpEgress {u : State} {xs : List LinkChange}
    (h : s.egress.cChanges = .leftUp :: xs)
    (hu : { s with egress := { s.egress with cChanges := xs } }.readoutLinkLost = u) :
    exec .cPortLeavingUpEgress s = .next u.emptyEgress := by
  simp only [exec, execCPortLeavingUpEgress, h, hu]

theorem readoutLinkLost_sending {x : ReadoutRecord} (hx : s.readout.engine = .sending x) :
    s.readoutLinkLost = ((s.givePart x false).setEngine .free).countAborted := by
  simp only [State.readoutLinkLost, hx]

theorem readoutLinkLost_terminating {x : TerminatingRecord} (hx : s.readout.engine = .terminating x) :
    s.readoutLinkLost = s.setEngine .free := by
  simp only [State.readoutLinkLost, hx]

theorem readoutLinkLost_free (hx : s.readout.engine = .free) : s.readoutLinkLost = s := by
  simp only [State.readoutLinkLost, hx]

/-- Before the event unit leads, the coming UP is not taken (R174; assumption 26). -/
theorem exec_cPortComingUpEgress_waits (h : ¬ EventsLead s) : exec .cPortComingUpEgress s = .next s := by
  have hlead : s.events.leads = false := by rw [← Bool.not_eq_true, s.leads_iff]; exact h
  simp only [exec, execCPortComingUpEgress, hlead, Bool.false_eq_true, if_false]
  split <;> rfl

theorem exec_cPortComingUpEgress {t : State} {xs : List LinkChange}
    (h : s.egress.cChanges = .cameUp :: xs) (hlead : EventsLead s)
    (ht : { s with egress := { s.egress with cChanges := xs, held := false } }.examineEngine = some t) :
    exec .cPortComingUpEgress s = .next t := by
  simp only [exec, execCPortComingUpEgress, h, s.leads_iff.mpr hlead, if_true, ht]
  rfl

end

/-- Settles O48: the engine ends its readout as the queues are emptied, and examines DT as they are
released. -/
theorem cPortChangesReachEgress : Obligations.CPortChangesReachEgress := by
  refine ⟨fun s s₀ xs hleft hs₀ => ?_, fun s => exec_cPortComingUpEgress_waits,
    fun s xs hcame hlead => ⟨fun hfree => ?_, fun x hx hmemory => ?_, fun x hx hpending hroom => ?_⟩⟩
  · subst hs₀
    refine ⟨fun hx => ?_, fun x hx => ?_, fun x h hx hp => ?_, fun x hx hp => ?_⟩
    · exact (exec_cPortLeavingUpEgress hleft (readoutLinkLost_free hx)).trans rfl
    · exact (exec_cPortLeavingUpEgress hleft (readoutLinkLost_terminating hx)).trans rfl
    · rw [← givePart_half hp]
      exact (exec_cPortLeavingUpEgress hleft (readoutLinkLost_sending hx)).trans rfl
    · rw [← givePart_snapshot (RingPart.half_eq_none.mpr hp) false]
      exact (exec_cPortLeavingUpEgress hleft (readoutLinkLost_sending hx)).trans rfl
  · exact exec_cPortComingUpEgress hcame hlead (examineEngine_of_free hfree)
  · obtain ⟨frames, y, hplaces, hexamine⟩ := State.examineEngine_sending
      (s := { s with egress := { s.egress with cChanges := xs, held := false } }) hx rfl hmemory
    exact ⟨frames, y, hplaces, exec_cPortComingUpEgress hcame hlead hexamine⟩
  · exact exec_cPortComingUpEgress hcame hlead (examineEngine_pending hx hpending rfl hroom)

end Sys2Proof

/-! ## READ_RING and ABORT_READ (O55, O56) -/

namespace Sys2Proof

open Sys2Proof.Machine

/-! ### The requests (R93, R101) -/

theorem ringPartOf_eq_none {n : Nat} (h : 3 ≤ n) : ringPartOf n = none := by
  rw [ringPartOf, if_neg (by omega), if_neg (by omega), if_neg (by omega)]

theorem ringPartOf_of_number {n : Nat} {p : RingPart} (h : n ≤ 2)
    (hp : p = if n = 0 then .halfA else if n = 1 then .halfB else .snapshot) : ringPartOf n = some p := by
  subst hp
  rw [ringPartOf]
  split_ifs
  · rfl
  · rfl
  · rfl
  · omega

/-- What READ_RING answers for its arguments (R93, R94). -/
def readRingAnswer (args : List Byte) (u : State) : Option Answer :=
  match indexBelow 8 (byteAt args 0), ringPartOf (byteAt args 1) with
  | some k, some part => u.readRing k part
  | _, _ => some (.badValue, [], u)

section
variable {s : State} {q : Request} {ring part : Byte} (hq : Executes s q 0x09) (ha : q.args = [ring, part])
include hq ha

/-- READ_RING answers what its operation at the part that its arguments name gives. -/
theorem exec_readRing {t : State} {status : Status} {results : List Byte} {k : Fin 8} {p : RingPart}
    (hk : k.val = ring.toNat) (hp : ringPartOf part.toNat = some p)
    (h : s.readRing k p = some (status, results, t)) :
    exec .readRing s = .next (answered t q status results) := by
  refine hq.exec_answers (run := readRingAnswer) rfl (ha ▸ rfl) ?_
  have hk' : indexBelow 8 (byteAt q.args 0) = some k := by rw [ha]; exact indexBelow_of_val hk.symm
  have hp' : ringPartOf (byteAt q.args 1) = some p := by rw [ha]; exact hp
  simp only [readRingAnswer, hk', hp', h]

/-- A number that names no ring or no part is refused (R93 check 1). -/
theorem exec_readRing_bad (hbad : 8 ≤ ring.toNat ∨ 3 ≤ part.toNat) :
    exec .readRing s = .next (answered s q .badValue []) := by
  refine hq.exec_answers (results := []) (run := readRingAnswer) rfl (ha ▸ rfl) ?_
  rcases hbad with hbad | hbad
  · have hk : indexBelow 8 (byteAt q.args 0) = none := by rw [ha]; exact indexBelow_eq_none hbad
    simp only [readRingAnswer, hk]
  · have hp : ringPartOf (byteAt q.args 1) = none := by rw [ha]; exact ringPartOf_eq_none hbad
    cases hk : indexBelow 8 (byteAt q.args 0) <;> simp only [readRingAnswer, hk, hp]

end

/-! ### The checks of R93 -/

section
variable {s : State} {k : Fin 8} {p : RingPart}

theorem readRingStatus_busy (hbusy : s.readout.engine ≠ .free) : s.readRingStatus k p = .busy :=
  if_pos hbusy

section
variable {r : Ring} (hr : r = s.rings.get k) (hfree : s.readout.engine = .free)
include hr hfree

theorem readRingStatus_disabled (he : r.enabled = false) : s.readRingStatus k p = .state := by
  subst hr
  rw [State.readRingStatus, if_neg (not_not.mpr hfree), if_pos he]

variable (he : r.enabled = true)
include he

/-- Of a free engine and an enabled ring, what is left to check is the mode and the part's state. -/
theorem readRingStatus_enabled : s.readRingStatus k p =
    if p.fits r.mode = false then .badValue else if r.partReady p = false then .state else .accepted := by
  subst hr
  rw [State.readRingStatus, if_neg (not_not.mpr hfree), if_neg (by simp [he])]

theorem readRingStatus_misfit (h : p.fits r.mode = false) : s.readRingStatus k p = .badValue := by
  rw [readRingStatus_enabled hr hfree he, if_pos h]

theorem readRingStatus_not_ready (h : p.fits r.mode = true) (hready : r.partReady p = false) :
    s.readRingStatus k p = .state := by
  rw [readRingStatus_enabled hr hfree he, if_neg (by simp [h]), if_pos hready]

theorem readRingStatus_accepted (h : p.fits r.mode = true) (hready : r.partReady p = true) :
    s.readRingStatus k p = .accepted := by
  rw [readRingStatus_enabled hr hfree he, if_neg (by simp [h]), if_neg (by simp [hready])]

end

end

theorem fits_half {p : RingPart} {h : HalfId} (hp : p.half = some h) (m : RingMode) :
    p.fits m = decide (m = .stream) := by
  cases m <;> simp [RingPart.fits, hp]

theorem fits_eq_false {p : RingPart} {m : RingMode}
    (h : (p = .snapshot ∧ m = .stream) ∨ (p ≠ .snapshot ∧ m = .snapshot)) : p.fits m = false := by
  rcases h with ⟨rfl, rfl⟩ | ⟨hp, rfl⟩
  · rfl
  · cases p
    · rfl
    · rfl
    · exact absurd rfl hp

theorem partReady_half {r : Ring} {p : RingPart} {h : HalfId} (hp : p.half = some h) :
    r.partReady p = decide ((r.stream.half h).state = .full) := by
  simp only [Ring.partReady, hp]

/-! ### What is accepted (R94) -/

theorem partGapped_half (r : Ring) {part : RingPart} {h : HalfId} (hp : part.half = some h) :
    r.partGapped part = (r.stream.half h).gapped := by
  cases part <;> cases hp <;> rfl

/-- The position of a snapshot's first word, E - V round the range (R94, R97). -/
theorem partStart_snapshot {r : Ring} {c : CaptureRecord} (hc : r.snapshot.record = some c)
    (hvalid : c.valid ≤ r.length) :
    r.partStart .snapshot = (((c.endPosition : Int) - c.valid) % r.length).toNat := by
  have hstart : r.partStart .snapshot = (c.endPosition + (r.length - c.valid)) % r.length := by
    simp only [Ring.partStart, hc]
  have hround : (c.endPosition : Int) + (r.length - c.valid) = c.endPosition - c.valid + r.length := by
    ring
  have hcast : ((r.partStart .snapshot : Nat) : Int) = ((c.endPosition : Int) - c.valid) % r.length := by
    rw [hstart]
    push_cast [hvalid]
    rw [hround, Int.add_emod_right]
  rw [← hcast, Int.toNat_natCast]

/-- The record of a readout from its first word on (R94 step 3). -/
def readoutFrom (id : Nat) (k : Fin 8) (p : RingPart) (total start : Nat) (gapped : Bool) : ReadoutRecord where
  id := id
  ring := k
  part := p
  total := total
  start := start
  gapped := gapped
  nextOffset := 0
  wordsSent := 0
  framesQueued := 0
  lastQueued := false

/-- READ_RING of a part passes R93's checks, and what it claims: the ring with the part READING, and what
the readout's record says of the part. -/
structure Accepts (s : State) (k : Fin 8) (p : RingPart) (claimed : Ring) (total start : Nat)
    (gapped : Bool) : Prop where
  status : s.readRingStatus k p = .accepted
  claimed : (s.rings.get k).claimPart p = claimed
  total : (s.rings.get k).partWords p = total
  start : (s.rings.get k).partStart p = start
  gapped : (s.rings.get k).partGapped p = gapped

section
variable {s : State} {k : Fin 8} {p : RingPart} {r : Ring} (hr : r = s.rings.get k)
  (hfree : s.readout.engine = .free) (he : r.enabled = true)
include hr hfree he

theorem accepts_half {h : HalfId} (hp : p.half = some h) (hm : r.mode = .stream)
    (hfull : (r.stream.half h).state = .full) :
    Accepts s k p
      { r with stream := r.stream.setHalf h { r.stream.half h with state := .reading } }
      (r.stream.half h).fill (r.base + (if h = .a then 0 else r.length / 2))
      (r.stream.half h).gapped where
  status := readRingStatus_accepted hr hfree he (by rw [fits_half hp, hm]; rfl)
    (by rw [partReady_half hp, hfull]; rfl)
  claimed := hr ▸ claimPart_half hp
  total := hr ▸ partWords_half r hp
  start := hr ▸ (partStart_half r hp).trans (halfStart_eq r h)
  gapped := hr ▸ partGapped_half r hp

theorem accepts_snapshot {c : CaptureRecord} (hm : r.mode = .snapshot)
    (hfrozen : r.snapshot.state = .frozen) (hc : r.snapshot.record = some c) (hvalid : c.valid ≤ r.length) :
    Accepts s k .snapshot { r with snapshot := { r.snapshot with state := .reading } } c.valid
      (((c.endPosition : Int) - c.valid) % r.length).toNat r.snapshot.gapped where
  status := readRingStatus_accepted hr hfree he (by rw [hm]; rfl)
    (by simp only [Ring.partReady, RingPart.half, hfrozen, decide_true])
  claimed := hr ▸ rfl
  total := by subst hr; simp only [Ring.partWords, hc]
  start := hr ▸ partStart_snapshot hc hvalid
  gapped := hr ▸ rfl

end

/-- The state in which an accepted readout has claimed its part, with nothing placed yet (R94). -/
def claimedState (s : State) (k : Fin 8) (claimed : Ring) (x : ReadoutRecord) : State :=
  { s with
    rings := s.rings.set k claimed
    readout := { s.readout with engine := .sending x, nextId := (s.readout.nextId + 1) % 256 } }

section
variable {s : State} {k : Fin 8} {p : RingPart} {claimed : Ring} {total start : Nat} {gapped : Bool}
  (h : Accepts s k p claimed total start gapped)
include h

theorem Accepts.acceptReadout_eq : s.acceptReadout k p =
    claimedState s k claimed (readoutFrom s.readout.nextId k p total start gapped) := by
  obtain ⟨_, rfl, rfl, rfl, rfl⟩ := h
  rfl

/-- The reply gives the id and the total words, and the engine has examined DT (R94, R95). -/
theorem Accepts.readRing_eq {t : State}
    (ht : (claimedState s k claimed (readoutFrom s.readout.nextId k p total start gapped)).examineEngine
      = some t) :
    s.readRing k p = some (.accepted, byteOf s.readout.nextId :: bytes4 total, t) := by
  rw [State.readRing, if_pos h.status, h.acceptReadout_eq, ht, State.readRingResults, h.total]
  rfl

end

theorem readRing_refused {s : State} {k : Fin 8} {p : RingPart} {status : Status}
    (h : s.readRingStatus k p = status) (hnot : status ≠ .accepted) :
    s.readRing k p = some (status, [], s) := by
  subst h
  rw [State.readRing, if_neg hnot]

/-! ### ABORT_READ (R101, R102) -/

/-- What ABORT_READ answers (R101). -/
def abortReadAnswer (u : State) : Option Answer :=
  match u.readout.engine with
  | .sending x => some (.ok, [], u.abortReadout x)
  | _ => some (.state, [], u)

section
variable {s : State} {q : Request} (hq : Executes s q 0x0A) (ha : q.args = [])
include hq ha

theorem exec_abortRead_sending {x : ReadoutRecord} (hx : s.readout.engine = .sending x) :
    exec .abortRead s = .next (answered (s.abortReadout x) q .ok []) :=
  hq.exec_answers (run := fun _ => abortReadAnswer) rfl (ha ▸ rfl) (by simp only [abortReadAnswer, hx])

theorem exec_abortRead_refused
    (h : s.readout.engine = .free ∨ ∃ x, s.readout.engine = .terminating x) :
    exec .abortRead s = .next (answered s q .state []) := by
  refine hq.exec_answers (run := fun _ => abortReadAnswer) rfl (ha ▸ rfl) ?_
  rcases h with h | ⟨x, h⟩ <;> simp only [abortReadAnswer, h]

end

/-- The record that an aborted readout leaves, its terminating frame pending (R101 step 3). -/
def terminatingFrom (x : ReadoutRecord) : TerminatingRecord :=
  ⟨x.id, x.ring, x.part, x.gapped, x.wordsSent, true⟩

/-- A readout aborted, before its terminating frame is placed: its part given back, and DT without its frames
(R101). -/
def abortedState (s : State) (x : ReadoutRecord) (kept : List DtFrame) : State :=
  { s with
    rings := s.rings.set x.ring ((s.rings.get x.ring).givePart x.part false)
    egress := { s.egress with dt := kept, streak := if kept = [] then 0 else s.egress.streak }
    readout := { s.readout with
      engine := .terminating (terminatingFrom x), aborted := min (s.readout.aborted + 1) 4294967295 } }

section
variable {s : State} {x : ReadoutRecord} {kept : List DtFrame}
  (hkept : s.egress.dt.filter (fun f => !f.ofReadout x.id) = kept)
include hkept

theorem abortReadout_eq : s.abortReadout x = (abortedState s x kept).placeTerminator := by
  subst hkept
  rfl

theorem abortReadout_placed (hheld : s.egress.held = false) (hroom : kept.length < 16) :
    s.abortReadout x = { abortedState s x kept with
      egress := { (abortedState s x kept).egress with dt := kept ++ [.readout (terminatingFrom x).frame] }
      readout := { (abortedState s x kept).readout with
        engine := .terminating { terminatingFrom x with pending := false } } } :=
  (abortReadout_eq hkept).trans (placeTerminator_pending (x := terminatingFrom x) rfl rfl hheld hroom)

/-- While DT takes nothing, the terminating frame is pending (R102). -/
theorem abortReadout_pending (hfull : s.egress.held = true ∨ 16 ≤ kept.length) :
    s.abortReadout x = abortedState s x kept := by
  rw [abortReadout_eq hkept]
  rcases State.placeTerminator_cases (abortedState s x kept) with h | ⟨_, _, _, hheld, hroom, _⟩
  · exact h
  · rcases hfull with hfull | hfull
    · cases hfull.symm.trans hheld
    · exact absurd hroom (Nat.not_lt.mpr hfull)

end

/-- Where every READOUT frame of DT is the readout's, what stays is the REDUCED frames. -/
theorem filter_ofReadout {q : List DtFrame} {id : Nat} {keep : DtFrame → Bool}
    (hreduced : ∀ records, keep (.reduced records) = true) (hreadout : ∀ f, keep (.readout f) = false)
    (h : ∀ f, .readout f ∈ q → f.id = id) : q.filter (fun f => !f.ofReadout id) = q.filter keep := by
  refine List.filter_congr fun f hf => ?_
  cases f with
  | reduced records => exact (hreduced records).symm
  | readout f => simp [DtFrame.ofReadout, h f hf, hreadout]

/-- Settles O55: the checks of R93 in their order, the claim of an accepted readout, and what an abort
leaves. -/
theorem readoutRequestsClaimAndGiveBack : Obligations.ReadoutRequestsClaimAndGiveBack := by
  refine ⟨fun s q ring part hq ha => ⟨exec_readRing_bad hq ha, fun k p r hk hr hp hpart => ?_⟩,
    fun s q hq ha => ⟨exec_abortRead_refused hq ha, fun x rings hx hrings => ?_⟩⟩
  · have hpart := ringPartOf_of_number hpart hp
    have refused {status} (h : s.readRingStatus k p = status) (hnot : status ≠ .accepted) :
        exec .readRing s = .next (answered s q status []) :=
      exec_readRing hq ha hk hpart (readRing_refused h hnot)
    refine ⟨fun hbusy => refused (readRingStatus_busy hbusy) nofun,
      fun hfree he => refused (readRingStatus_disabled hr hfree he) nofun,
      fun hfree he hmis => refused (readRingStatus_misfit hr hfree he (fits_eq_false hmis)) nofun,
      fun h hh hfree he hm => ⟨fun hfull => ?_, fun hfull hheld => ?_⟩,
      fun c hsnap hfree he hm => ⟨fun hfrozen => ?_, fun hfrozen hc hvalid hheld => ?_⟩⟩
    · refine refused (readRingStatus_not_ready hr hfree he ?_ ?_) nofun
      · rw [fits_half hh, hm]; rfl
      · rw [partReady_half hh, decide_eq_false hfull]
    · exact exec_readRing hq ha hk hpart
        ((accepts_half hr hfree he hh hm hfull).readRing_eq (State.examineEngine_held hheld))
    · rw [hsnap] at refused
      refine refused (readRingStatus_not_ready hr hfree he ?_ ?_) nofun
      · rw [hm]; rfl
      · exact decide_eq_false hfrozen
    · rw [hsnap] at hpart
      exact exec_readRing hq ha hk hpart
        ((accepts_snapshot hr hfree he hm hfrozen hc hvalid).readRing_eq (State.examineEngine_held hheld))
  · have hrings : rings = s.rings.set x.ring ((s.rings.get x.ring).givePart x.part false) := by
      rw [hrings]
      cases hp : x.part.half with
      | some h => rw [givePart_half hp]
      | none => rw [givePart_snapshot hp]
    subst hrings
    rw [exec_abortRead_sending hq ha hx]
    refine ⟨fun hheld hdt => ?_, fun kept hheld hkept hids => ?_⟩
    · have hkept : s.egress.dt.filter (fun f => !f.ofReadout x.id) = s.egress.dt := by rw [hdt]; rfl
      rw [abortReadout_pending hkept (.inl hheld), abortedState, if_pos hdt]
      rfl
    · have hkept : s.egress.dt.filter (fun f => !f.ofReadout x.id) = kept := by
        rw [hkept]
        exact filter_ofReadout (fun _ => rfl) (fun _ => rfl) hids
      refine ⟨fun hroom => ?_, fun hfull => ?_⟩
      · rw [abortReadout_placed hkept hheld hroom]
        rfl
      · have hne : kept ≠ [] := List.ne_nil_of_length_pos (by omega)
        rw [abortReadout_pending hkept (.inr hfull), abortedState, if_neg hne]
        rfl

/-! ### The first frames of an accepted readout (O56) -/

/-- `PlacesFrames` looks at the words of the part alone. -/
theorem PlacesFrames.of_same_words {s u : State} {x y : ReadoutRecord} {n : Nat}
    {frames : List ReadoutFrame} (h : PlacesFrames u x y n frames)
    (hwords : ∀ k, readoutWord u x k = readoutWord s x k) : PlacesFrames s x y n frames := by
  obtain ⟨hlength, hrun, hframes, hy⟩ := h
  refine ⟨hlength, hrun, fun f hf => ?_, hy⟩
  obtain ⟨hcount, hgapped, heq⟩ := hframes f hf
  exact ⟨hcount, hgapped, heq.trans (List.map_congr_left fun j _ => hwords _)⟩

theorem readoutWord_congr {s u : State} {x : ReadoutRecord} {k : Nat} (hmemory : u.memory = s.memory)
    (hbase : (u.rings.get x.ring).base = (s.rings.get x.ring).base)
    (hlength : (u.rings.get x.ring).length = (s.rings.get x.ring).length) :
    readoutWord u x k = readoutWord s x k := by
  simp only [readoutWord, hmemory, hbase, hlength]

theorem claimPart_base (r : Ring) (part : RingPart) : (r.claimPart part).base = r.base := by
  rw [Ring.claimPart]
  split <;> rfl

theorem claimPart_length (r : Ring) (part : RingPart) : (r.claimPart part).length = r.length := by
  rw [Ring.claimPart]
  split <;> rfl

theorem readoutInMemory_of_half {s : State} {x : ReadoutRecord} (h : x.part ≠ .snapshot) :
    ReadoutInMemory s x ↔ x.start + x.total ≤ 65536 := by
  rw [ReadoutInMemory, if_neg h]

theorem readoutInMemory_of_snapshot {s : State} {x : ReadoutRecord} (h : x.part = .snapshot) :
    ReadoutInMemory s x ↔ 0 < (s.rings.get x.ring).length
      ∧ (s.rings.get x.ring).base + (s.rings.get x.ring).length ≤ 65536 := by
  rw [ReadoutInMemory, if_pos h]

section
variable {s : State} {k : Fin 8} {p : RingPart} {claimed : Ring} {total start : Nat} {gapped : Bool}
  (h : Accepts s k p claimed total start gapped)
include h

/-- The claim changes neither the ring's range nor a word of it. -/
theorem Accepts.readoutWord_eq (i : Nat) :
    readoutWord (claimedState s k claimed (readoutFrom s.readout.nextId k p total start gapped))
        (readoutFrom s.readout.nextId k p total start gapped) i
      = readoutWord s (readoutFrom s.readout.nextId k p total start gapped) i := by
  have hget : (s.rings.set k claimed).get k = (s.rings.get k).claimPart p := by
    rw [Table.get_set_self, h.claimed]
  exact readoutWord_congr rfl ((congrArg Machine.Ring.base hget).trans (claimPart_base _ _))
    ((congrArg Machine.Ring.length hget).trans (claimPart_length _ _))

end

/-- A full DT takes no frame of the engine (R95). -/
theorem produceOne_of_full {s : State} (h : 16 ≤ s.egress.dt.length) : s.produceOne = some s := by
  rcases hx : s.readout.engine with _ | x | x
  · exact produceOne_of_free hx
  · have hfull : s.egress.dtFree = false := by simp [Egress.dtFree, Config.dtCapacity, h]
    simp only [State.produceOne, hx, hfull, Bool.false_and, Bool.false_eq_true, if_false]
  · simp only [State.produceOne, hx]

/-- Nothing follows LAST (R95). -/
theorem produceOne_of_lastQueued {s : State} {x : ReadoutRecord} (hx : s.readout.engine = .sending x)
    (h : x.lastQueued = true) : s.produceOne = some s := by
  have hwants : x.wantsFrame = false := by simp [ReadoutRecord.wantsFrame, h]
  simp only [State.produceOne, hx, hwants, Bool.and_false, Bool.false_eq_true, if_false]

theorem framesToPlace_no_words (id start : Nat) (k : Fin 8) (p : RingPart) (gapped : Bool) :
    framesToPlace (readoutFrom id k p 0 start gapped) = 1 := by
  simp [framesToPlace, readoutFrom]

/-- A readout of no words places one frame, wherever its part lies (R95). -/
theorem examineEngine_no_words {s : State} {id start : Nat} {k : Fin 8} {p : RingPart} {gapped : Bool}
    (hx : s.readout.engine = .sending (readoutFrom id k p 0 start gapped)) (hheld : s.egress.held = false) :
    ∃ frames y, PlacesFrames s (readoutFrom id k p 0 start gapped) y (16 - s.egress.dt.length) frames
      ∧ s.examineEngine = some { s with
          egress := { s.egress with dt := s.egress.dt ++ frames.map .readout }
          readout := { s.readout with engine := .sending y } } := by
  have hplaced : s.placeTerminator = s :=
    State.placeTerminator_eq_self fun y hy => by rw [hx] at hy; cases hy
  rw [State.examineEngine, hplaced]
  by_cases hroom : s.egress.dt.length < 16
  · have hone := produceOne_sending hx hheld hroom (by decide : 0 < 8) rfl rfl
    have hlast : (readoutFrom id k p 0 start gapped).placed.lastQueued = true := by
      simp [ReadoutRecord.placed, readoutFrom]
    refine ⟨[s.nextFrame (readoutFrom id k p 0 start gapped)],
      (readoutFrom id k p 0 start gapped).placed, ⟨?_, ?_, ?_, rfl⟩, ?_⟩
    · rw [framesToPlace_no_words]
      show 1 = min (min 8 (16 - s.egress.dt.length)) 1
      omega
    · exact ⟨⟨rfl, rfl, rfl, rfl, rfl, iff_of_true hlast (Nat.zero_le _), fun _ => rfl⟩, rfl⟩
    · intro f hf
      rw [List.mem_singleton.mp hf]
      exact ⟨rfl, rfl, rfl⟩
    · show s.produceOne.bind _ = _
      rw [hone, Option.bind_some]
      exact produceUpTo_of_self (produceOne_of_lastQueued rfl hlast) _
  · have hone := produceOne_of_full (Nat.le_of_not_lt hroom)
    refine ⟨[], readoutFrom id k p 0 start gapped, ⟨?_, rfl, nofun, rfl⟩, ?_⟩
    · rw [framesToPlace_no_words]
      show 0 = min (min 8 (16 - s.egress.dt.length)) 1
      omega
    · rw [produceUpTo_of_self hone, List.map_nil, List.append_nil, ← hx]

/-- Wherever the part of an accepted readout lies, the engine places its first frames (R95 to R97). -/
theorem Accepts.examineEngine_places {s : State} {k : Fin 8} {p : RingPart} {claimed : Ring}
    {total start : Nat} {gapped : Bool} (h : Accepts s k p claimed total start gapped)
    (hheld : s.egress.held = false)
    (hmemory : total = 0 ∨ ReadoutInMemory
      (claimedState s k claimed (readoutFrom s.readout.nextId k p total start gapped))
      (readoutFrom s.readout.nextId k p total start gapped)) :
    ∃ frames y, PlacesFrames s (readoutFrom s.readout.nextId k p total start gapped) y
        (16 - s.egress.dt.length) frames
      ∧ (claimedState s k claimed (readoutFrom s.readout.nextId k p total start gapped)).examineEngine
        = some { claimedState s k claimed y with
          egress := { s.egress with dt := s.egress.dt ++ frames.map .readout } } := by
  rcases hmemory with rfl | hmemory
  · obtain ⟨frames, y, hplaces, hexamine⟩ := examineEngine_no_words
      (s := claimedState s k claimed (readoutFrom s.readout.nextId k p 0 start gapped)) rfl hheld
    exact ⟨frames, y, hplaces.of_same_words h.readoutWord_eq, hexamine⟩
  · obtain ⟨frames, y, hplaces, hexamine⟩ := State.examineEngine_sending
      (s := claimedState s k claimed (readoutFrom s.readout.nextId k p total start gapped)) rfl hheld hmemory
    exact ⟨frames, y, hplaces.of_same_words h.readoutWord_eq, hexamine⟩

/-- Settles O56: the part that is claimed lies in its ring's range, which lies in capture memory. -/
theorem acceptedReadoutPlacesItsFirstFrames : Obligations.AcceptedReadoutPlacesItsFirstFrames := by
  intro s q ring part k p r claimed total start gapped hq ha hk hr hpart hp hfree hheld he hrange hclaims
  have hget : (s.rings.set k claimed).get k = claimed := Table.get_set_self _ _ _
  have hfits : Accepts s k p claimed total start gapped ∧ (total = 0 ∨ ReadoutInMemory
      (claimedState s k claimed (readoutFrom s.readout.nextId k p total start gapped))
      (readoutFrom s.readout.nextId k p total start gapped)) := by
    rcases hclaims with ⟨h, hh, hm, hfull, rfl, _, hle, rfl, rfl, rfl⟩
      | ⟨c, hsnap, hm, hfrozen, hc, rfl, hle, rfl, rfl, rfl⟩
    · refine ⟨accepts_half hr hfree he hh hm hfull, .inr ?_⟩
      have hnot : p ≠ .snapshot := fun hs => by rw [hs] at hh; cases hh
      refine (readoutInMemory_of_half hnot).mpr ?_
      simp only [readoutFrom]
      split <;> omega
    · subst hsnap
      refine ⟨accepts_snapshot hr hfree he hm hfrozen hc hle, ?_⟩
      refine (Nat.eq_zero_or_pos c.valid).imp id fun hpos => ?_
      refine (readoutInMemory_of_snapshot rfl).mpr ?_
      simp only [readoutFrom, claimedState, hget]
      exact ⟨hpos.trans_le hle, hrange⟩
  obtain ⟨haccepts, hmemory⟩ := hfits
  obtain ⟨frames, y, hplaces, hexamine⟩ := haccepts.examineEngine_places hheld hmemory
  exact ⟨frames, y, hplaces, exec_readRing hq ha hk (ringPartOf_of_number hpart hp)
    (haccepts.readRing_eq hexamine)⟩

end Sys2Proof
